-- ==== Sys2Proof/Word.lean ====
section
/-!
DEFINITION. The plain value types the block moves: bytes, unsigned words and byte strings of a fixed size.
Every value is an unsigned integer of its declared width (spec 00_scope.md R8); a byte string is written lowest
offset first (R9). Record sizes: 20_memory.md R40.
-/

namespace Sys2Proof

/-- One byte of a record (R9). -/
abbrev Byte := BitVec 8

/-- A 4-byte field: the raw identifier field, `id32`, `value32`, `blob_len` (R45). -/
abbrev Word := BitVec 32

/-- An 8-byte field: `interval_us` and the LP64 interval fields (R45). -/
abbrev DWord := BitVec 64

/-- A byte string of exactly `n` bytes (R9, R40). -/
abbrev Bytes (n : Nat) := Vector Byte n

/-- The 8-byte payload buffer (R70, `MAX_PAYLOAD` of R6). -/
abbrev Payload := Bytes 8

/-- The 16-byte frame record (R27, R70). -/
abbrev Frame := Bytes 16

/-- The 48-byte request record (R60). -/
abbrev RequestRecord := Bytes 48

/-- The 96-byte response record (R63). -/
abbrev ResponseRecord := Bytes 96

/-- A node address: the low 7 bits of an identifier (R12, `NODE_MASK` of R6). -/
abbrev NodeAddr := BitVec 7

/-- Bits 11:7 of an identifier, which select a row of the classification table (R76). -/
abbrev ClassCode := BitVec 5

/-- `n` bytes of 0. -/
def zeroBytes (n : Nat) : Bytes n := Vector.replicate n 0

end Sys2Proof
end

