-- ==== Sys2Proof/Config.lean ====
section
/-!
DEFINITION. The configuration parameters of spec 00_scope.md R7: tie-offs fixed when a block instance is made,
readable and writable by no request (10_state.md R23). The spec leaves no result of an operation open, so there
is no free value here.
-/

namespace Sys2Proof

/-- ENDIAN: the byte order of the multi-byte fields of frame records and envelopes (R41, D4). -/
inductive Endian where
  | little
  | big
  deriving DecidableEq, Repr

/-- BCM_LAYOUT: the 52-byte envelope of R73 or the 72-byte envelope of R74 (D19). -/
inductive BcmLayout where
  | docPacked
  | lp64
  deriving DecidableEq, Repr

/-- BCM_IVAL1: the value of the envelope's first interval pair (R122, D20). -/
inductive BcmIval1 where
  | zero
  | sameAsIval2
  deriving DecidableEq, Repr

/-- NMT_EMPTY_POLICY: what COCLS does with an NMT-state frame of length 0 (R145, D13). -/
inductive NmtEmptyPolicy where
  | readBuffer
  | fault
  deriving DecidableEq, Repr

/-- One block instance's parameters (R7). The field defaults are R7's default column. -/
structure Config where
  endian : Endian := .little
  bcmLayout : BcmLayout := .docPacked
  bcmIval1 : BcmIval1 := .zero
  nmtEmptyPolicy : NmtEmptyPolicy := .readBuffer
  deriving DecidableEq, Repr

end Sys2Proof
end

