-- ==== Sys2Proof/Syntax.lean ====
section
/-!
DEFINITION. `Instr`: one constructor per row of spec/opcode_table.json. The eight rows of format REQ are what a
48-byte request record decodes to (30_encoding.md R62, R68, R81). The eight rows of format ID29 are the rows of
the COCLS classification table (R76, R140), what a valid 16-byte frame record decodes to; log entry 6.
-/

namespace Sys2Proof

/-- The operations of "operation set 1", the illegal request, and the rows of the classification table. -/
inductive Instr where
  /-- FENC, op 0x01 (R100): `id32`, `len`, `data`, `flags` bits 0 and 1. -/
  | fenc (id32 : Word) (len : Byte) (data : Payload) (rtr err : Bool)
  /-- FDEC, op 0x02 (R110): `frame`. -/
  | fdec (frame : Frame)
  /-- BCMSETUP, op 0x03 (R120): `id32`, `interval_us`, `flags` bits 2 and 3, `frame`. -/
  | bcmsetup (id32 : Word) (intervalUs : DWord) (setTimer startTimer : Bool) (frame : Frame)
  /-- COCLS, op 0x10 (R140): `frame`. -/
  | cocls (frame : Frame)
  /-- COSPDO, op 0x11 (R160): `node`, `channel`, `len`, `data`. -/
  | cospdo (node channel len : Byte) (data : Payload)
  /-- COSNMT, op 0x12 (R162): `node`, `cmd`. -/
  | cosnmt (node cmd : Byte)
  /-- COSSDO, op 0x13 (R163): reads no operand. -/
  | cossdo
  /-- ILLEGAL (R61, R62, R69): an unassigned `op`, or any `op` with a reserved bit set. -/
  | illegal (op : Byte)
  /-- CLS_SYNC, function code 0x080 (R142). -/
  | clsSync (node : NodeAddr) (len : Byte)
  /-- CLS_PDO1, function code 0x180 (R143). -/
  | clsPdo1 (node : NodeAddr) (len : Byte) (data : Payload)
  /-- CLS_PDO2, function code 0x280 (R143). -/
  | clsPdo2 (node : NodeAddr) (len : Byte) (data : Payload)
  /-- CLS_PDO3, function code 0x380 (R143). -/
  | clsPdo3 (node : NodeAddr) (len : Byte) (data : Payload)
  /-- CLS_PDO4, function code 0x480 (R143). -/
  | clsPdo4 (node : NodeAddr) (len : Byte) (data : Payload)
  /-- CLS_SDO, function code 0x580 (R146). -/
  | clsSdo (node : NodeAddr)
  /-- CLS_NMT_STATE, function code 0x700 (R144, R145); `state` is buffer byte 0, read whatever `len` is. -/
  | clsNmtState (node : NodeAddr) (len : Byte) (state : Byte)
  /-- CLS_UNRECOGNIZED (R147): every other function code; `code` is its bits 11:7. -/
  | clsUnrecognized (code : ClassCode) (node : NodeAddr)
  deriving DecidableEq, Repr

end Sys2Proof
end

