-- ==== Sys2Proof/WellFormed.lean ====
section
/-!
DEFINITION. Which terms of `Instr` some record encodes. Every operand value of a request operation is encodable
(R60, R81: fields of 8, 32 and 64 bits, checked by the operation itself). A classification row needs a valid
frame, length byte at most 8 (R27, R72), and CLS_UNRECOGNIZED a function code no other row has (R76, R147).
-/

namespace Sys2Proof

/-- The seven function codes of the classification table, as their bits 11:7 (R76). -/
def recognizedCodes : List ClassCode := [1, 3, 5, 7, 9, 11, 14]

/-- A length byte the source's invariant allows (R27, R72). -/
def validLen (len : Byte) : Bool := len.toNat ≤ 8

def Instr.wellFormed : Instr → Bool
  | .fenc _ _ _ _ _ => true
  | .fdec _ => true
  | .bcmsetup _ _ _ _ _ => true
  | .cocls _ => true
  | .cospdo _ _ _ _ => true
  | .cosnmt _ _ => true
  | .cossdo => true
  | .illegal _ => true
  | .clsSync _ len => validLen len
  | .clsPdo1 _ len _ => validLen len
  | .clsPdo2 _ len _ => validLen len
  | .clsPdo3 _ len _ => validLen len
  | .clsPdo4 _ len _ => validLen len
  | .clsSdo _ => true
  | .clsNmtState _ len _ => validLen len
  | .clsUnrecognized code _ => !recognizedCodes.contains code

end Sys2Proof
end

