-- ==== Sys2Proof/Decode.lean ====
section
/-!
DEFINITION. Byte order, the layouts of the frame record and of the request record, the two decoders (a 48-byte
request, R68; a 16-byte frame against the classification table, R76 and R140) and the encoder.
-/

namespace Sys2Proof

/-! ## Byte order (R10, R41, R42) -/

/-- Σ b_i · 2^(8i) over the bytes of a list, lowest offset first (R41). -/
def leValue : List Byte → Nat
  | [] => 0
  | b :: bs => b.toNat + 256 * leValue bs

/-- The `n` bytes of `v`, least significant first. -/
def leBytes : Nat → Nat → List Byte
  | 0, _ => []
  | n + 1, v => BitVec.ofNat 8 v :: leBytes n (v / 256)

/-- The bytes of a field, in the order ENDIAN stores them (R41). -/
def inOrder (e : Endian) (bs : List Byte) : List Byte :=
  match e with
  | .little => bs
  | .big => bs.reverse

/-- `buf[off..off+n]` (R9). -/
def slice {m : Nat} (v : Bytes m) (off n : Nat) (h : off + n ≤ m := by decide) : Bytes n :=
  ⟨⟨(v.toList.drop off).take n⟩, by simp; omega⟩

/-- `MemRead(rec, off, n)`: the unsigned value of an `n`-byte field in order ENDIAN (R10, R41). -/
def memRead {m : Nat} (e : Endian) (v : Bytes m) (off n : Nat) (h : off + n ≤ m := by decide) : Nat :=
  leValue (inOrder e (slice v off n h).toList)

/-- The `n` bytes `MemWrite(rec, off, n, v)` puts at `off`; it requires v < 2^(8n) (R10, R41). -/
def memBytes (e : Endian) (n v : Nat) : List Byte := inOrder e (leBytes n v)

@[simp] theorem leBytes_length (n v : Nat) : (leBytes n v).length = n := by
  induction n generalizing v with
  | zero => rfl
  | succ n ih => simp [leBytes, ih]

@[simp] theorem inOrder_length (e : Endian) (bs : List Byte) : (inOrder e bs).length = bs.length := by
  cases e <;> simp [inOrder]

@[simp] theorem memBytes_length (e : Endian) (n v : Nat) : (memBytes e n v).length = n := by
  simp [memBytes]

/-! ## The frame record (R6, R11, R70, R71, R111) -/

def sffMask : Word := 0x7FF
def effMask : Word := 0x1FFFFFFF
def effFlag : Word := 0x80000000
def rtrFlag : Word := 0x40000000
def errFlag : Word := 0x20000000
def funcMask : Word := 0xF80
def nodeMask : Word := 0x7F

/-- `raw_id(f)`: the 32-bit raw identifier field (R11). -/
def rawId (e : Endian) (f : Frame) : Word := BitVec.ofNat 32 (memRead e f 0 4)

/-- `dlen(f)`: the length byte (R11). -/
def dlen (f : Frame) : Byte := f[4]

/-- `fdata(f)`: the 8-byte payload buffer (R11). -/
def fdata (f : Frame) : Payload := slice f 8 8

/-- The numeric identifier in a raw field, masked by format (R111). -/
def numericId (raw : Word) : Word :=
  if raw.getLsbD 31 then raw &&& effMask else raw &&& sffMask

/-- Bits 11:7 of the identifier, the bits `id AND 0xF80` keeps (R76, R141). -/
def classCode (id : Word) : ClassCode := id.extractLsb' 7 5

/-- `id AND 0x7F` (R149). -/
def nodeOf (id : Word) : NodeAddr := id.extractLsb' 0 7

/-- The raw field of an identifier with RTR and ERR clear: extended exactly above the standard range (R101). -/
def promoted (id : Word) : Word := if id.toNat > 0x7FF then id ||| effFlag else id

/-- A frame record laid out as in R70, padding bytes 0 (R102). -/
def mkFrame (e : Endian) (raw : Word) (len : Byte) (buf : Payload) : Frame :=
  ⟨⟨memBytes e 4 raw.toNat ++ [len] ++ [0, 0, 0] ++ buf.toList⟩, by simp⟩

/-! ## The request record (R60) -/

/-- The fields of a request record; multi-byte fields are little-endian whatever ENDIAN is (R42, R60). -/
structure Request where
  op : Byte := 0
  flags : Byte := 0
  len : Byte := 0
  node : Byte := 0
  channel : Byte := 0
  cmd : Byte := 0
  rsv0 : BitVec 16 := 0
  id32 : Word := 0
  rsv1 : Word := 0
  intervalUs : DWord := 0
  data : Payload := zeroBytes 8
  frame : Frame := zeroBytes 16
  deriving DecidableEq, Repr

def Request.ofBytes (b : RequestRecord) : Request where
  op := b[0]
  flags := b[1]
  len := b[2]
  node := b[3]
  channel := b[4]
  cmd := b[5]
  rsv0 := BitVec.ofNat 16 (memRead .little b 6 2)
  id32 := BitVec.ofNat 32 (memRead .little b 8 4)
  rsv1 := BitVec.ofNat 32 (memRead .little b 12 4)
  intervalUs := BitVec.ofNat 64 (memRead .little b 16 8)
  data := slice b 24 8
  frame := slice b 32 16

def Request.toBytes (q : Request) : RequestRecord :=
  ⟨⟨[q.op, q.flags, q.len, q.node, q.channel, q.cmd] ++ memBytes .little 2 q.rsv0.toNat
      ++ memBytes .little 4 q.id32.toNat ++ memBytes .little 4 q.rsv1.toNat
      ++ memBytes .little 8 q.intervalUs.toNat ++ q.data.toList ++ q.frame.toList⟩, by simp⟩

/-- The selectors that name an operation (R62). -/
def assignedOps : List Byte := [0x01, 0x02, 0x03, 0x10, 0x11, 0x12, 0x13]

/-- A reserved bit of the request is set: `flags[7:4]`, `rsv0` or `rsv1` (R61). -/
def Request.reservedSet (q : Request) : Bool :=
  q.flags.extractLsb' 4 4 != 0 || q.rsv0 != 0 || q.rsv1 != 0

/-! ## Decoding -/

/-- Why a byte string is no instruction of either format. -/
inductive DecodeError where
  /-- The byte string is neither a 48-byte request nor a 16-byte frame record (R40, R82). -/
  | recordSize (bytes : Nat)
  /-- The frame record's length byte exceeds 8, so the classification table does not apply (R27, R140). -/
  | malformedFrame (len : Byte)
  deriving DecidableEq, Repr

/-- R68: the operation, or the illegal request, that a request's fields select. -/
def decodeFields (q : Request) : Instr :=
  if !assignedOps.contains q.op then .illegal q.op
  else if q.reservedSet then .illegal q.op
  else if q.op = 0x01 then .fenc q.id32 q.len q.data (q.flags.getLsbD 0) (q.flags.getLsbD 1)
  else if q.op = 0x02 then .fdec q.frame
  else if q.op = 0x03 then
    .bcmsetup q.id32 q.intervalUs (q.flags.getLsbD 2) (q.flags.getLsbD 3) q.frame
  else if q.op = 0x10 then .cocls q.frame
  else if q.op = 0x11 then .cospdo q.node q.channel q.len q.data
  else if q.op = 0x12 then .cosnmt q.node q.cmd
  else .cossdo

def decodeRequest (b : RequestRecord) : Instr := decodeFields (Request.ofBytes b)

/-- The row of the classification table (R76) for bits 11:7 of an identifier, with its operands (R140). -/
def classRow (code : ClassCode) (node : NodeAddr) (len : Byte) (buf : Payload) : Instr :=
  if code = 1 then .clsSync node len
  else if code = 3 then .clsPdo1 node len buf
  else if code = 5 then .clsPdo2 node len buf
  else if code = 7 then .clsPdo3 node len buf
  else if code = 9 then .clsPdo4 node len buf
  else if code = 11 then .clsSdo node
  else if code = 14 then .clsNmtState node len buf[0]
  else .clsUnrecognized code node

/-- R140: the classification row of a valid frame. -/
def decodeFrame (e : Endian) (f : Frame) : Except DecodeError Instr :=
  if validLen (dlen f) then
    .ok (classRow (classCode (numericId (rawId e f))) (nodeOf (numericId (rawId e f))) (dlen f) (fdata f))
  else .error (.malformedFrame (dlen f))

/-- Total on any byte string: 48 bytes are a request, 16 bytes a frame record, any other size is refused. -/
def decode (e : Endian) (bs : List Byte) : Except DecodeError Instr :=
  if h : bs.length = 48 then .ok (decodeRequest ⟨⟨bs⟩, h⟩)
  else if h : bs.length = 16 then decodeFrame e ⟨⟨bs⟩, h⟩
  else .error (.recordSize bs.length)

/-! ## Encoding -/

/-- The `flags` byte of a request: bit 0 rtr, bit 1 err, bit 2 set_timer, bit 3 start_timer (R60). -/
def flagsByte (rtr err setTimer startTimer : Bool) : Byte :=
  (if rtr then 0x01 else 0) ||| (if err then 0x02 else 0)
    ||| (if setTimer then 0x04 else 0) ||| (if startTimer then 0x08 else 0)

/-- The frame record of a classification row: identifier bits 28:12 zero, RTR and ERR clear (log entry 7). Function codes
0x800 and above need the extended format, since a standard frame's bits 28:11 are not read (R71). -/
def classFrame (e : Endian) (code : ClassCode) (node : NodeAddr) (len : Byte) (buf : Payload) : Frame :=
  mkFrame e (promoted ((code ++ node).setWidth 32)) len buf

/-- A request for an illegal `op`: an assigned selector needs a reserved bit set, here `flags` bit 4 (log entry 7). -/
def illegalRequest (op : Byte) : Request :=
  { op := op, flags := if assignedOps.contains op then 0x10 else 0 }

/-- The record of an instruction: 48 bytes for a request, 16 for a classification row (R60, R70). Every field an
operation does not read is 0. -/
def encode (e : Endian) : Instr → List Byte
  | .fenc id32 len data rtr err =>
    (Request.toBytes { op := 0x01, flags := flagsByte rtr err false false, len, id32, data }).toList
  | .fdec frame => (Request.toBytes { op := 0x02, frame }).toList
  | .bcmsetup id32 intervalUs setTimer startTimer frame =>
    (Request.toBytes
      { op := 0x03, flags := flagsByte false false setTimer startTimer, id32, intervalUs, frame }).toList
  | .cocls frame => (Request.toBytes { op := 0x10, frame }).toList
  | .cospdo node channel len data => (Request.toBytes { op := 0x11, node, channel, len, data }).toList
  | .cosnmt node cmd => (Request.toBytes { op := 0x12, node, cmd }).toList
  | .cossdo => (Request.toBytes { op := 0x13 }).toList
  | .illegal op => (illegalRequest op).toBytes.toList
  | .clsSync node len => (classFrame e 1 node len (zeroBytes 8)).toList
  | .clsPdo1 node len data => (classFrame e 3 node len data).toList
  | .clsPdo2 node len data => (classFrame e 5 node len data).toList
  | .clsPdo3 node len data => (classFrame e 7 node len data).toList
  | .clsPdo4 node len data => (classFrame e 9 node len data).toList
  | .clsSdo node => (classFrame e 11 node 0 (zeroBytes 8)).toList
  | .clsNmtState node len state => (classFrame e 14 node len ((zeroBytes 8).set 0 state)).toList
  | .clsUnrecognized code node => (classFrame e code node 0 (zeroBytes 8)).toList

/-! ## The words of spec/opcode_table.json -/

/-- A table word is in format ID29 when the table gives its row 9 to 32 bits, else in format REQ (log entry 5). -/
def isId29 (nbits : Nat) : Bool := 8 < nbits && nbits ≤ 32

/-- The request record whose bits are `w`, byte 0 least significant. -/
def wordRequest (w : Nat) : RequestRecord := ⟨⟨leBytes 48 w⟩, by simp⟩

/-- The frame record of length 0 whose 29-bit identifier is `w`, made extended above 0x7FF as FENC does (R101). -/
def wordFrame (e : Endian) (w : Nat) : Frame :=
  mkFrame e (promoted (BitVec.ofNat 32 (w % 2 ^ 29))) 0 (zeroBytes 8)

/-- The instruction the decoder reads from a table word: a REQ word is the first bytes of a request, an ID29 word the
identifier of a frame record (log entry 5). The frame is laid out and read in one byte order, so which is immaterial. -/
def decodeTableWord (nbits w : Nat) : Option Instr :=
  if isId29 nbits then (decodeFrame .little (wordFrame .little (w % 2 ^ nbits))).toOption
  else some (decodeRequest (wordRequest (w % 2 ^ nbits)))

/-- The request record that makes the block run a table word: the request itself, or COCLS of the ID29 word's frame. -/
def tableRequest (e : Endian) (nbits w : Nat) : RequestRecord :=
  if isId29 nbits then Request.toBytes { op := 0x10, frame := wordFrame e (w % 2 ^ nbits) }
  else wordRequest (w % 2 ^ nbits)

end Sys2Proof
end

