-- ==== Sys2Proof/Machine/State.lean ====
section
/-!
DEFINITION. The state of one block instance as plain data, the value types of its responses, and the reasons a
step could stop. The block keeps nothing from one request to the next (10_state.md R20 to R22, R24, R26); what
there is to hold are its parameters (R23) and the two ends of its interface: requests presented and not yet
answered, responses answered and not yet taken (R22, R202, R205). Log entries 1, 2, 12.
-/

namespace Sys2Proof.Machine

/-- Status codes (R64). -/
inductive Status where
  | ok
  | tooMuchData
  | idTooLarge
  | unrecognizedId
  | sdoUnimplemented
  | malformedFrame
  | badNode
  | badChannel
  | badCommand
  | intervalTooLarge
  | illegalRequest
  | emptyNmtPayload
  deriving DecidableEq, Repr

/-- Response kinds (R65). -/
inductive Kind where
  | none
  | fields
  | frame
  | envelope
  | msgSync
  | msgPdo
  | msgNmtState
  deriving DecidableEq, Repr

/-- NMT states (R66). -/
inductive NmtState where
  | initializing
  | stopped
  | operational
  | preOperational
  deriving DecidableEq, Repr

/-- NMT commands (R79). -/
inductive NmtCommand where
  | goToOperational
  | goToStopped
  | goToPreOperational
  | resetNode
  | resetCommunication
  deriving DecidableEq, Repr

/-- The fields of a response record (R63). Every field an operation does not write is 0 (R10, R63). -/
structure Response where
  status : Byte := 0
  kind : Byte := 0
  oflags : Byte := 0
  len : Byte := 0
  channel : Byte := 0
  nmtState : Byte := 0
  node : Byte := 0
  nmtRaw : Byte := 0
  value32 : Word := 0
  blobLen : Word := 0
  data : Payload := zeroBytes 8
  blob : Bytes 72 := zeroBytes 72
  deriving DecidableEq, Repr

/-- One block instance. It has no power state and needs no wake-up: apart from the fixed parameters there are the two queues of the
interface only, and no operation reads them, so no state that an answer needs can be lost (R192). -/
structure State where
  /-- The parameters of R7, which no request reads out or changes (R23). -/
  cfg : Config
  /-- Requests presented and not yet answered, oldest first (R22, R51, R202). -/
  requests : List RequestRecord
  /-- Responses answered and not yet taken by the host, oldest first (R31, R205). -/
  responses : List ResponseRecord
  deriving DecidableEq, Repr

/-- Why the machine stops with a fault. There is no such reason, so no constructor and nobody who raises one: a
failing operation is a response and the block is ready for the next request at once (R180, R185). -/
inductive Fault where
  deriving DecidableEq, Repr

/-- Why an instruction has no meaning. -/
inductive Refusal where
  /-- Raised by an arm of `exec` whose instruction has no meaning yet; no arm does. Safe: the model stops where the
  hardware goes on. -/
  | notModelled (mnemonic : String)
  deriving DecidableEq, Repr

/-- The block right after reset: idle, no response pending (R31, R200). The parameters are those the instance was made
with (R201); here R7's defaults (log entry 2). -/
def State.reset : State where
  cfg := {}
  requests := []
  responses := []

end Sys2Proof.Machine
end

