-- ==== Sys2Proof/Machine/Ops.lean ====
section
/-!
DEFINITION. The named operations every meaning is written over: the response record's layout and codes, answering
a request, `raise` (the one way an operation fails), taking the next request, and the host's three actions.
-/

namespace Sys2Proof.Machine

/-- The outcome of one step or meaning. -/
abbrev Result := Host.Outcome State Fault Refusal

/-! ## Codes (R64, R65, R66) -/

def Status.code : Status → Byte
  | .ok => 0x00
  | .tooMuchData => 0x01
  | .idTooLarge => 0x02
  | .unrecognizedId => 0x03
  | .sdoUnimplemented => 0x04
  | .malformedFrame => 0x05
  | .badNode => 0x06
  | .badChannel => 0x07
  | .badCommand => 0x08
  | .intervalTooLarge => 0x09
  | .illegalRequest => 0x0A
  | .emptyNmtPayload => 0x0B

def Kind.code : Kind → Byte
  | .none => 0x00
  | .fields => 0x01
  | .frame => 0x02
  | .envelope => 0x03
  | .msgSync => 0x10
  | .msgPdo => 0x11
  | .msgNmtState => 0x12

def NmtState.code : NmtState → Byte
  | .initializing => 0
  | .stopped => 1
  | .operational => 2
  | .preOperational => 3

/-! ## The response record (R63) -/

def Response.toBytes (r : Response) : ResponseRecord :=
  ⟨⟨[r.status, r.kind, r.oflags, r.len, r.channel, r.nmtState, r.node, r.nmtRaw]
      ++ memBytes .little 4 r.value32.toNat ++ memBytes .little 4 r.blobLen.toNat
      ++ r.data.toList ++ r.blob.toList⟩, by simp⟩

def Response.ofBytes (b : ResponseRecord) : Response where
  status := b[0]
  kind := b[1]
  oflags := b[2]
  len := b[3]
  channel := b[4]
  nmtState := b[5]
  node := b[6]
  nmtRaw := b[7]
  value32 := BitVec.ofNat 32 (memRead .little b 8 4)
  blobLen := BitVec.ofNat 32 (memRead .little b 12 4)
  data := slice b 16 8
  blob := slice b 24 72

/-- The `blob` field that carries the bytes `bs`; the bytes past them are 0 (R63). -/
def blobOf (bs : List Byte) : Bytes 72 := Vector.ofFn fun i => bs.getD i.1 0

/-- The frame record a FRAME response carries, `blob[0..16]` (R65). -/
def Response.frame (r : Response) : Frame := slice r.blob 0 16

/-! ## Answering a request -/

/-- The response leaves whole, after every earlier one (R46, R49). -/
def State.respond (s : State) (r : Response) : State :=
  { s with responses := s.responses ++ [r.toBytes] }

/-- `raise S(v)`: the response holds the status and the value, every other field is 0, and nothing else happens
(R10, R180). This is all there is to taking an exception (R185), and there is no return from one (R186). -/
def raise (status : Status) (value : Word) (s : State) : Result :=
  .next (s.respond { status := status.code, value32 := value })

/-- `return`: the response `r` with status OK (R10). -/
def finish (r : Response) (s : State) : Result :=
  .next (s.respond { r with status := Status.code .ok })

/-- The FRAME response (R65). -/
def finishFrame (f : Frame) (s : State) : Result :=
  finish { kind := Kind.code .frame, blobLen := 16, blob := blobOf f.toList } s

/-- The ENVELOPE response (R65). -/
def finishEnvelope (bs : List Byte) (s : State) : Result :=
  finish { kind := Kind.code .envelope, blobLen := BitVec.ofNat 32 bs.length, blob := blobOf bs } s

/-! ## Taking the next request (R22, R51, R68) -/

/-- The oldest presented request, decoded, and the state it is performed on: the record is read whole and leaves the
queue. None when no request is presented. -/
def nextRequest (s : State) : Option (Instr × State) :=
  match s.requests with
  | [] => none
  | b :: rest => some (decodeRequest b, { s with requests := rest })

/-- `b` becomes the request the block performs next. -/
def State.presentFirst (s : State) (b : RequestRecord) : State :=
  { s with requests := b :: s.requests }

/-! ## The host's actions (R30); they fall between steps (log entry 11) -/

/-- The host presents a request, whether or not earlier responses have been taken (R205). -/
def State.present (s : State) (b : RequestRecord) : State :=
  { s with requests := s.requests ++ [b] }

/-- The host takes the oldest response (R205). None when none is pending. -/
def State.takeResponse (s : State) : Option (ResponseRecord × State) :=
  match s.responses with
  | [] => none
  | b :: rest => some (b, { s with responses := rest })

/-- Reset: idle, no response pending; unanswered requests are discarded without a response, the parameters stay
(R200, R201, R202). No answer needs what is discarded (R20, R192). -/
def State.applyReset (s : State) : State :=
  { s with requests := [], responses := [] }

end Sys2Proof.Machine
end

