-- ==== Sys2Proof/Machine/Operands.lean ====
section
/-!
DEFINITION. Operand forms and tables the meanings share: the payload slice, the serialization bases, the NMT tables,
the interval split and the two envelope layouts.
-/

namespace Sys2Proof.Machine

/-- The first `len` bytes of a payload, the rest 0 (R100, R102, R113). -/
def payloadSlice (len : Byte) (data : Payload) : Payload :=
  Vector.ofFn fun i => if i.1 < len.toNat then data[i] else 0

/-- `fc[11:7]` as the function code `id AND 0xF80` (R76). -/
def functionCode (code : ClassCode) : Word := (code ++ (0 : NodeAddr)).setWidth 32

/-- The channel of a ProcessData row, bits 11:8 of the function code (R143). -/
def pdoChannel (code : ClassCode) : Byte := (code.extractLsb' 1 4).setWidth 8

/-- A channel operand COSPDO accepts (R161). -/
def validChannel (channel : Byte) : Bool := 1 ≤ channel.toNat && channel.toNat ≤ 4

/-- A node operand COSPDO and COSNMT accept (R161, R162). -/
def validNode (node : Byte) : Bool := node.toNat ≤ 0x7F

/-- `((ch + 1) << 8) | node`: the channel's to-device base OR node (R77, R160). -/
def pdoIdentifier (channel node : Byte) : Word :=
  ((channel.setWidth 32 + 1) <<< 8) ||| node.setWidth 32

/-- `0x700 | node` (R77, R162). -/
def nmtIdentifier (node : Byte) : Word := 0x700 ||| node.setWidth 32

/-- The command a `cmd` operand code selects (R79). -/
def nmtCommandOf (cmd : Byte) : Option NmtCommand :=
  if cmd = 0 then some .goToOperational
  else if cmd = 1 then some .goToStopped
  else if cmd = 2 then some .goToPreOperational
  else if cmd = 3 then some .resetNode
  else if cmd = 4 then some .resetCommunication
  else none

/-- The operand code of a command (R79, R80). -/
def NmtCommand.code : NmtCommand → Byte
  | .goToOperational => 0
  | .goToStopped => 1
  | .goToPreOperational => 2
  | .resetNode => 3
  | .resetCommunication => 4

/-- The payload byte of a command (R79). -/
def NmtCommand.payloadByte : NmtCommand → Byte
  | .goToOperational => 0x01
  | .goToStopped => 0x02
  | .goToPreOperational => 0x80
  | .resetNode => 0x81
  | .resetCommunication => 0x82

/-- `NmtState(b)`: the closed-world table of R78. -/
def nmtStateOf (b : Byte) : NmtState :=
  if b = 0x04 then .stopped
  else if b = 0x05 then .operational
  else if b = 0x7F then .preOperational
  else .initializing

/-- `interval_us div 1000000` (R121). -/
def intervalSec (us : DWord) : Nat := us.toNat / 1000000

/-- `interval_us mod 1000000` (R121). -/
def intervalUsec (us : DWord) : Nat := us.toNat % 1000000

/-- The first interval pair (seconds, microseconds), set by BCM_IVAL1 (R122). -/
def firstInterval (p : BcmIval1) (us : DWord) : Nat × Nat :=
  match p with
  | .zero => (0, 0)
  | .sameAsIval2 => (intervalSec us, intervalUsec us)

/-- The 52-byte envelope of R73. -/
def envelopeDocPacked (c : Config) (id32 flags : Word) (us : DWord) (f : Frame) : List Byte :=
  memBytes c.endian 4 1 ++ memBytes c.endian 4 flags.toNat ++ memBytes c.endian 4 0
    ++ memBytes c.endian 4 (firstInterval c.bcmIval1 us).1 ++ memBytes c.endian 4 (firstInterval c.bcmIval1 us).2
    ++ memBytes c.endian 4 (intervalSec us) ++ memBytes c.endian 4 (intervalUsec us)
    ++ memBytes c.endian 4 id32.toNat ++ memBytes c.endian 4 1 ++ f.toList

/-- The 72-byte envelope of R74: 4 bytes of padding after `count`, 8-byte interval fields. -/
def envelopeLp64 (c : Config) (id32 flags : Word) (us : DWord) (f : Frame) : List Byte :=
  memBytes c.endian 4 1 ++ memBytes c.endian 4 flags.toNat ++ memBytes c.endian 4 0 ++ [0, 0, 0, 0]
    ++ memBytes c.endian 8 (firstInterval c.bcmIval1 us).1 ++ memBytes c.endian 8 (firstInterval c.bcmIval1 us).2
    ++ memBytes c.endian 8 (intervalSec us) ++ memBytes c.endian 8 (intervalUsec us)
    ++ memBytes c.endian 4 id32.toNat ++ memBytes c.endian 4 1 ++ f.toList

end Sys2Proof.Machine
end

