-- ==== Sys2Proof/Machine/Flags.lean ====
section
/-!
DEFINITION. Flag computations: the three flags of the raw identifier field, the `oflags` byte, and the flags field of
the envelope.
-/

namespace Sys2Proof.Machine

/-- The raw identifier field FENC writes: EFF exactly when the identifier exceeds 0x7FF (R101), RTR and ERR each from
its own operand (R104). -/
def rawWithFlags (id : Word) (rtr err : Bool) : Word :=
  id ||| (if id.toNat > 0x7FF then effFlag else 0) ||| (if rtr then rtrFlag else 0)
    ||| (if err then errFlag else 0)

/-- Bits 31, 30 and 29 of a raw field (R71, R112). -/
def extFlag (raw : Word) : Bool := raw.getLsbD 31
def rtrFlagOf (raw : Word) : Bool := raw.getLsbD 30
def errFlagOf (raw : Word) : Bool := raw.getLsbD 29

/-- `oflags`: bit 0 ext, bit 1 rtr, bit 2 err, bits 7:3 zero (R67). -/
def oflagsByte (raw : Word) : Byte :=
  (if extFlag raw then 0x01 else 0) ||| (if rtrFlagOf raw then 0x02 else 0)
    ||| (if errFlagOf raw then 0x04 else 0)

/-- The envelope's flags field: 0x0001 for set timer OR 0x0002 for start timer (R75, R123). -/
def envelopeFlags (setTimer startTimer : Bool) : Word :=
  (if setTimer then 0x0001 else 0) ||| (if startTimer then 0x0002 else 0)

end Sys2Proof.Machine
end

