-- ==== Sys2Proof/Machine/Classifier.lean ====
section
/-!
DEFINITION. The rows of the COCLS classification table (spec 30_encoding.md R76, 41_canopen.md R140 to R149).
-/

namespace Sys2Proof.Machine

/-- The MSG_PDO response: the frame's full 8-byte buffer and its reported length (R143). -/
def finishPdo (code : ClassCode) (node : NodeAddr) (len : Byte) (data : Payload) (s : State) : Result :=
  finish { kind := Kind.code .msgPdo, value32 := functionCode code, channel := pdoChannel code,
           node := node.setWidth 8, len, data } s

/-- CLS_SYNC (R142): the payload is not examined. -/
def execClsSync (node : NodeAddr) (len : Byte) (s : State) : Result :=
  finish { kind := Kind.code .msgSync, value32 := functionCode 1, node := node.setWidth 8, len } s

/-- CLS_PDO1 (R143). -/
def execClsPdo1 (node : NodeAddr) (len : Byte) (data : Payload) (s : State) : Result :=
  finishPdo 3 node len data s

/-- CLS_PDO2 (R143). -/
def execClsPdo2 (node : NodeAddr) (len : Byte) (data : Payload) (s : State) : Result :=
  finishPdo 5 node len data s

/-- CLS_PDO3 (R143). -/
def execClsPdo3 (node : NodeAddr) (len : Byte) (data : Payload) (s : State) : Result :=
  finishPdo 7 node len data s

/-- CLS_PDO4 (R143). -/
def execClsPdo4 (node : NodeAddr) (len : Byte) (data : Payload) (s : State) : Result :=
  finishPdo 9 node len data s

/-- CLS_SDO (R146): rejected with a distinct status; the node does not reach the response. -/
def execClsSdo (_node : NodeAddr) (s : State) : Result :=
  raise .sdoUnimplemented (functionCode 11) s

/-- CLS_NMT_STATE (R144); a frame of length 0 is subject to NMT_EMPTY_POLICY (R145). -/
def execClsNmtState (node : NodeAddr) (len state : Byte) (s : State) : Result :=
  if len = 0 ∧ s.cfg.nmtEmptyPolicy = .fault then raise .emptyNmtPayload (functionCode 14) s
  else
    finish { kind := Kind.code .msgNmtState, value32 := functionCode 14, node := node.setWidth 8, len,
             nmtRaw := state, nmtState := (nmtStateOf state).code } s

/-- CLS_UNRECOGNIZED (R147): the value is the masked identifier, not the identifier. -/
def execClsUnrecognized (code : ClassCode) (_node : NodeAddr) (s : State) : Result :=
  raise .unrecognizedId (functionCode code) s

end Sys2Proof.Machine
end

