-- ==== Sys2Proof/Machine/CanOpen.lean ====
section
/-!
DEFINITION. The Protocol Layer family: COCLS, COSPDO, COSNMT, COSSDO (spec 41_canopen.md), and the illegal request.
-/

namespace Sys2Proof.Machine

/-- COCLS (R140): validity first, then the row that bits 11:7 of the identifier select; EFF takes part in masking the
identifier and no flag is examined otherwise (R148). -/
def execCocls (frame : Frame) (s : State) : Result :=
  if (dlen frame).toNat > 8 then raise .malformedFrame ((dlen frame).setWidth 32) s
  else
    let id := numericId (rawId s.cfg.endian frame)
    let code := classCode id
    let node := nodeOf id
    let len := dlen frame
    let data := fdata frame
    if code = 1 then execClsSync node len s
    else if code = 3 then execClsPdo1 node len data s
    else if code = 5 then execClsPdo2 node len data s
    else if code = 7 then execClsPdo3 node len data s
    else if code = 9 then execClsPdo4 node len data s
    else if code = 11 then execClsSdo node s
    else if code = 14 then execClsNmtState node len data[0] s
    else execClsUnrecognized code node s

/-- COSPDO (R160): channel, then node, then length (R183); RTR and ERR are 0 and the frame is standard (R164). -/
def execCospdo (node channel len : Byte) (data : Payload) (s : State) : Result :=
  if !validChannel channel then raise .badChannel (channel.setWidth 32) s
  else if !validNode node then raise .badNode (node.setWidth 32) s
  else if len.toNat > 8 then raise .tooMuchData (len.setWidth 32) s
  else finishFrame (mkFrame s.cfg.endian (pdoIdentifier channel node) len (payloadSlice len data)) s

/-- COSNMT (R162): command, then node (R183); one payload byte from the table of R79. -/
def execCosnmt (node cmd : Byte) (s : State) : Result :=
  match nmtCommandOf cmd with
  | none => raise .badCommand (cmd.setWidth 32) s
  | some c =>
    if !validNode node then raise .badNode (node.setWidth 32) s
    else finishFrame (mkFrame s.cfg.endian (nmtIdentifier node) 1 ((zeroBytes 8).set 0 c.payloadByte)) s

/-- COSSDO (R163): always rejected, whatever the operands. -/
def execCossdo (s : State) : Result := raise .sdoUnimplemented 0x580 s

/-- ILLEGAL (R61, R62, R69): the value is the `op` byte. -/
def execIllegal (op : Byte) (s : State) : Result := raise .illegalRequest (op.setWidth 32) s

end Sys2Proof.Machine
end

