-- ==== Sys2Proof/Machine/FrameCodec.lean ====
section
/-!
DEFINITION. The Frame Codec family: FENC, FDEC and BCMSETUP (spec 40_frame_codec.md).
-/

namespace Sys2Proof.Machine

/-- FENC (R100): the length is checked before the identifier (R103). -/
def execFenc (id32 : Word) (len : Byte) (data : Payload) (rtr err : Bool) (s : State) : Result :=
  if len.toNat > 8 then raise .tooMuchData (len.setWidth 32) s
  else if id32.toNat > 0x1FFFFFFF then raise .idTooLarge id32 s
  else finishFrame (mkFrame s.cfg.endian (rawWithFlags id32 rtr err) len (payloadSlice len data)) s

/-- FDEC (R110). -/
def execFdec (frame : Frame) (s : State) : Result :=
  if (dlen frame).toNat > 8 then raise .malformedFrame ((dlen frame).setWidth 32) s
  else
    let raw := rawId s.cfg.endian frame
    finish { kind := Kind.code .fields, value32 := numericId raw, oflags := oflagsByte raw,
             len := dlen frame, data := payloadSlice (dlen frame) (fdata frame) } s

/-- BCMSETUP (R120): only the DOC_PACKED layout limits the seconds (R126). -/
def execBcmsetup (id32 : Word) (intervalUs : DWord) (setTimer startTimer : Bool) (frame : Frame)
    (s : State) : Result :=
  if (dlen frame).toNat > 8 then raise .malformedFrame ((dlen frame).setWidth 32) s
  else
    match s.cfg.bcmLayout with
    | .docPacked =>
      if intervalSec intervalUs > 0x7FFFFFFF then
        raise .intervalTooLarge (BitVec.ofNat 32 (min (intervalSec intervalUs) 0xFFFFFFFF)) s
      else
        finishEnvelope (envelopeDocPacked s.cfg id32 (envelopeFlags setTimer startTimer) intervalUs frame) s
    | .lp64 =>
      finishEnvelope (envelopeLp64 s.cfg id32 (envelopeFlags setTimer startTimer) intervalUs frame) s

end Sys2Proof.Machine
end

