-- ==== Sys2Proof/Machine/Dispatch.lean ====
section
/-!
DEFINITION. The meaning of every instruction: one arm per constructor of `Instr`, one direct call each.
-/

namespace Sys2Proof.Machine

def exec (i : Instr) (s : State) : Host.Outcome State Fault Refusal :=
  match i with
  | .fenc id32 len data rtr err => Sys2Proof.Machine.execFenc id32 len data rtr err s
  | .fdec frame => Sys2Proof.Machine.execFdec frame s
  | .bcmsetup id32 intervalUs setTimer startTimer frame => Sys2Proof.Machine.execBcmsetup id32 intervalUs setTimer startTimer frame s
  | .cocls frame => Sys2Proof.Machine.execCocls frame s
  | .cospdo node channel len data => Sys2Proof.Machine.execCospdo node channel len data s
  | .cosnmt node cmd => Sys2Proof.Machine.execCosnmt node cmd s
  | .cossdo => Sys2Proof.Machine.execCossdo s
  | .illegal op => Sys2Proof.Machine.execIllegal op s
  | .clsSync node len => Sys2Proof.Machine.execClsSync node len s
  | .clsPdo1 node len data => Sys2Proof.Machine.execClsPdo1 node len data s
  | .clsPdo2 node len data => Sys2Proof.Machine.execClsPdo2 node len data s
  | .clsPdo3 node len data => Sys2Proof.Machine.execClsPdo3 node len data s
  | .clsPdo4 node len data => Sys2Proof.Machine.execClsPdo4 node len data s
  | .clsSdo node => Sys2Proof.Machine.execClsSdo node s
  | .clsNmtState node len state => Sys2Proof.Machine.execClsNmtState node len state s
  | .clsUnrecognized code node => Sys2Proof.Machine.execClsUnrecognized code node s

end Sys2Proof.Machine
end

