-- ==== Sys2Proof/Machine/Step.lean ====
section
/-!
DEFINITION. One step: the block performs the oldest presented request (spec 10_state.md R22, 30_encoding.md R68). With
no request presented it stays idle (R200; log entry 3).
-/

namespace Sys2Proof.Machine

def step (s : State) : Host.Outcome State Fault Refusal :=
  match nextRequest s with
  | none => .next s
  | some (i, s') => exec i s'

/-- `s` with the request of a table word first in the queue, so that the very next step runs it (log entries 4, 5). -/
def State.withFetchWord (s : State) (nbits w : Nat) : State :=
  s.presentFirst (tableRequest s.cfg.endian nbits w)

end Sys2Proof.Machine
end

