-- ==== Sys2Proof/Machine/Assembly.lean ====
section
/-!
DEFINITION. The assembly form of a request (spec 30_encoding.md R80) and the pseudo-operations (R83): a line of text to
its keys, and the keys to a 48-byte request record. What R80 does not settle about the text is log entry 14.
-/

namespace Sys2Proof.Machine

/-- The mnemonics of R62. -/
inductive AsmOp where
  | fenc
  | fdec
  | bcmsetup
  | cocls
  | cospdo
  | cosnmt
  | cossdo
  deriving DecidableEq, Repr

/-- `frame={16 hex bytes}` or `frame=Rk` (R80). -/
inductive AsmFrame where
  | bytes (f : Frame)
  | response (k : Nat)
  deriving DecidableEq, Repr

/-- The keys of one line; a key that is absent leaves its field 0 (R80). -/
structure AsmKeys where
  id : Option Word := none
  data : Option (List Byte) := none
  len : Option Byte := none
  rtr : Option Bool := none
  err : Option Bool := none
  set : Option Bool := none
  start : Option Bool := none
  us : Option DWord := none
  node : Option Byte := none
  ch : Option Byte := none
  cmd : Option Byte := none
  frame : Option AsmFrame := none
  deriving DecidableEq, Repr

/-- One line: an operation with its keys, or a pseudo-operation (R83). -/
inductive AsmLine where
  | op (m : AsmOp) (keys : AsmKeys)
  | syncFrame
  | nmtStart (node : Byte)
  | nmtReset (node : Byte)
  deriving DecidableEq, Repr

/-- The selector of a mnemonic (R62). -/
def AsmOp.selector : AsmOp → Byte
  | .fenc => 0x01
  | .fdec => 0x02
  | .bcmsetup => 0x03
  | .cocls => 0x10
  | .cospdo => 0x11
  | .cosnmt => 0x12
  | .cossdo => 0x13

/-- The one request each pseudo-operation expands to (R83). -/
def AsmLine.expand : AsmLine → AsmOp × AsmKeys
  | .op m keys => (m, keys)
  | .syncFrame => (.fenc, { id := some 0x080, data := some [] })
  | .nmtStart node => (.cosnmt, { node := some node, cmd := some NmtCommand.goToOperational.code })
  | .nmtReset node => (.cosnmt, { node := some node, cmd := some NmtCommand.resetNode.code })

/-- The frame operand: `Rk` is `blob[0..16]` of response k, counted from 1; none where there is no response k (R80). -/
def asmFrameBytes (responses : List ResponseRecord) : Option AsmFrame → Option Frame
  | none => some (zeroBytes 16)
  | some (.bytes f) => some f
  | some (.response 0) => none
  | some (.response (k + 1)) => responses[k]?.map fun r => (Response.ofBytes r).frame

/-- The payload bytes a line gives; none without `data=`. -/
def AsmKeys.bytes (keys : AsmKeys) : List Byte := keys.data.getD []

/-- The request fields an operation's keys set, with the frame operand `f`; every field no key sets is 0 (R80). `data=` of n
bytes also sets `len` to n unless `len=` is given. -/
def keysRequest (m : AsmOp) (keys : AsmKeys) (f : Frame) : Request where
  op := m.selector
  flags := flagsByte (keys.rtr.getD false) (keys.err.getD false) (keys.set.getD false) (keys.start.getD false)
  len := keys.len.getD (BitVec.ofNat 8 keys.bytes.length)
  node := keys.node.getD 0
  channel := keys.ch.getD 0
  cmd := keys.cmd.getD 0
  id32 := keys.id.getD 0
  intervalUs := keys.us.getD 0
  data := Vector.ofFn fun i => keys.bytes.getD i.1 0
  frame := f

/-- The request fields of a line. More than 8 data bytes do not fit the field, and the line is refused (log entry 14). -/
def assembleFields (responses : List ResponseRecord) (line : AsmLine) : Option Request :=
  if line.expand.2.bytes.length > 8 then none
  else (asmFrameBytes responses line.expand.2.frame).map (keysRequest line.expand.1 line.expand.2)

/-- The request record of a line, given the responses of the program so far. -/
def assemble (responses : List ResponseRecord) (line : AsmLine) : Option RequestRecord :=
  (assembleFields responses line).map Request.toBytes

/-! ## The text of a line -/

def isBlank (c : Char) : Bool := c = ' ' || c = '\t'

/-- Blanks removed at both ends. -/
def trimBlanks (cs : List Char) : List Char :=
  ((cs.dropWhile isBlank).reverse.dropWhile isBlank).reverse

def digitValue (c : Char) : Option Nat :=
  if '0' ≤ c ∧ c ≤ '9' then some (c.toNat - '0'.toNat)
  else if 'a' ≤ c ∧ c ≤ 'f' then some (c.toNat - 'a'.toNat + 10)
  else if 'A' ≤ c ∧ c ≤ 'F' then some (c.toNat - 'A'.toNat + 10)
  else none

/-- The value of a non-empty run of digits in `base`, after the value `acc`. -/
def digitsValue (base acc : Nat) : List Char → Option Nat
  | [] => none
  | [c] => (digitValue c).bind fun d => if d < base then some (acc * base + d) else none
  | c :: cs => (digitValue c).bind fun d => if d < base then digitsValue base (acc * base + d) cs else none

/-- A decimal or `0x` hexadecimal number (R80). -/
def parseNumber : List Char → Option Nat
  | '0' :: 'x' :: cs => digitsValue 16 0 cs
  | cs => digitsValue 10 0 cs

/-- A number that fits `w` bits. -/
def parseBits (w : Nat) (cs : List Char) : Option (BitVec w) :=
  (parseNumber cs).bind fun n => if n < 2 ^ w then some (BitVec.ofNat w n) else none

def parseBit (cs : List Char) : Option Bool :=
  if cs = ['0'] then some false else if cs = ['1'] then some true else none

def openBrace : Char := Char.ofNat 0x7B
def closeBrace : Char := Char.ofNat 0x7D

/-- The pieces of a text between separators that stand outside brackets and braces. -/
def splitOutside (sep : Char → Bool) : Nat → List Char → List Char → List (List Char)
  | _, piece, [] => [piece.reverse]
  | depth, piece, c :: cs =>
    if depth = 0 ∧ sep c then piece.reverse :: splitOutside sep depth [] cs
    else if c = '[' ∨ c = openBrace then splitOutside sep (depth + 1) (c :: piece) cs
    else if c = ']' ∨ c = closeBrace then splitOutside sep (depth - 1) (c :: piece) cs
    else splitOutside sep depth (c :: piece) cs

/-- What stands between an opening and a closing character. -/
def enclosed (opening closing : Char) (cs : List Char) : Option (List Char) :=
  match cs with
  | [] => none
  | c :: rest =>
    if c = opening ∧ rest.getLast? = some closing then some (trimBlanks rest.dropLast) else none

/-- `[b0, ...]` (R80). -/
def parseByteList (cs : List Char) : Option (List Byte) :=
  (enclosed '[' ']' cs).bind fun inner =>
    if inner = [] then some []
    else (splitOutside (· = ',') 0 [] inner).mapM fun p => parseBits 8 (trimBlanks p)

/-- Two hexadecimal digits. -/
def parseHexByte (cs : List Char) : Option Byte :=
  if cs.length = 2 then (digitsValue 16 0 cs).map (BitVec.ofNat 8) else none

/-- Sixteen hexadecimal bytes between braces, or `Rk` (R80). -/
def parseFrame (cs : List Char) : Option AsmFrame :=
  match cs with
  | 'R' :: k => (digitsValue 10 0 k).map .response
  | _ =>
    (enclosed openBrace closeBrace cs).bind fun inner =>
      (((splitOutside isBlank 0 [] inner).filter (· ≠ [])).mapM parseHexByte).bind fun bs =>
        if h : bs.length = 16 then some (.bytes ⟨⟨bs⟩, h⟩) else none

/-- A command by number 0..255 or by name (R80). -/
def parseCommand (cs : List Char) : Option Byte :=
  if cs = "GoToOperational".toList then some NmtCommand.goToOperational.code
  else if cs = "GoToStopped".toList then some NmtCommand.goToStopped.code
  else if cs = "GoToPreOperational".toList then some NmtCommand.goToPreOperational.code
  else if cs = "ResetNode".toList then some NmtCommand.resetNode.code
  else if cs = "ResetCommunication".toList then some NmtCommand.resetCommunication.code
  else parseBits 8 cs

/-- A key written for the first time in the line. -/
def once {α : Type} (old new : Option α) (put : α → AsmKeys) : Option AsmKeys :=
  match old with
  | some _ => none
  | none => new.map put

/-- One `key=value` piece added to the keys read so far. -/
def parseKey (keys : AsmKeys) (piece : List Char) : Option AsmKeys :=
  let key := trimBlanks (piece.takeWhile (· ≠ '='))
  let value := trimBlanks ((piece.dropWhile (· ≠ '=')).drop 1)
  if key = "id".toList then once keys.id (parseBits 32 value) fun v => { keys with id := some v }
  else if key = "data".toList then once keys.data (parseByteList value) fun v => { keys with data := some v }
  else if key = "len".toList then once keys.len (parseBits 8 value) fun v => { keys with len := some v }
  else if key = "rtr".toList then once keys.rtr (parseBit value) fun v => { keys with rtr := some v }
  else if key = "err".toList then once keys.err (parseBit value) fun v => { keys with err := some v }
  else if key = "set".toList then once keys.set (parseBit value) fun v => { keys with set := some v }
  else if key = "start".toList then once keys.start (parseBit value) fun v => { keys with start := some v }
  else if key = "us".toList then once keys.us (parseBits 64 value) fun v => { keys with us := some v }
  else if key = "node".toList then once keys.node (parseBits 8 value) fun v => { keys with node := some v }
  else if key = "ch".toList then once keys.ch (parseBits 8 value) fun v => { keys with ch := some v }
  else if key = "cmd".toList then once keys.cmd (parseCommand value) fun v => { keys with cmd := some v }
  else if key = "frame".toList then once keys.frame (parseFrame value) fun v => { keys with frame := some v }
  else none

/-- The keys of a line, in any order (R80). -/
def parseKeys (cs : List Char) : Option AsmKeys :=
  if cs = [] then some {}
  else (splitOutside (· = ',') 0 [] cs).foldlM parseKey {}

/-- A pseudo-operation that takes `node=` only (R83). -/
def parseNodeOnly (keys : AsmKeys) (line : Byte → AsmLine) : Option AsmLine :=
  keys.node.bind fun n => if keys = { node := some n } then some (line n) else none

/-- `MNEMONIC key=value, key=value, ...`, with a comment from `;` on (R80). -/
def parseLine (text : List Char) : Option AsmLine :=
  let code := trimBlanks (text.takeWhile (· ≠ ';'))
  let word := code.takeWhile fun c => !isBlank c
  (parseKeys (trimBlanks (code.drop word.length))).bind fun keys =>
    if word = "FENC".toList then some (.op .fenc keys)
    else if word = "FDEC".toList then some (.op .fdec keys)
    else if word = "BCMSETUP".toList then some (.op .bcmsetup keys)
    else if word = "COCLS".toList then some (.op .cocls keys)
    else if word = "COSPDO".toList then some (.op .cospdo keys)
    else if word = "COSNMT".toList then some (.op .cosnmt keys)
    else if word = "COSSDO".toList then some (.op .cossdo keys)
    else if word = "SYNCFRAME".toList then (if keys = {} then some .syncFrame else none)
    else if word = "NMTSTART".toList then parseNodeOnly keys .nmtStart
    else if word = "NMTRESET".toList then parseNodeOnly keys .nmtReset
    else none

/-- The request record of a line of text. -/
def assembleText (responses : List ResponseRecord) (text : List Char) : Option RequestRecord :=
  (parseLine text).bind (assemble responses)

end Sys2Proof.Machine
end

