-- ==== Sys2Proof/Safety.lean ====
section
/-!
DEFINITION. What a legal response record is (30_encoding.md R63 to R67, 60_exceptions.md R180), the invariant of a state,
and which responses a run may hold and still count as good (93_implementation_defined.md section 1).
-/

namespace Sys2Proof.Machine

/-! ## Legal responses -/

/-- A failing response: one of the eleven failure codes, a value, and 0 in every other field (R64, R180). -/
def Response.isFailure (r : Response) : Prop :=
  (1 ≤ r.status.toNat ∧ r.status.toNat ≤ 0x0B) ∧ r = { status := r.status, value32 := r.value32 }

/-- A FIELDS response (R65, R67, R111, R113). -/
def Response.isFields (r : Response) : Prop :=
  r = { kind := 0x01, value32 := r.value32, oflags := r.oflags, len := r.len, data := r.data } ∧
    r.oflags.toNat ≤ 7 ∧ r.len.toNat ≤ 8 ∧ r.value32.toNat ≤ 0x1FFFFFFF ∧
    ∀ i : Fin 8, r.len.toNat ≤ i.1 → r.data[i] = 0

/-- A FRAME response: a valid frame record with zero padding, and zeros past it (R27, R63, R65, R102). -/
def Response.isFrame (r : Response) : Prop :=
  r = { kind := 0x02, blobLen := 16, blob := r.blob } ∧
    (dlen r.frame).toNat ≤ 8 ∧ (∀ i : Fin 16, 5 ≤ i.1 → i.1 < 8 → r.frame[i] = 0) ∧
    ∀ i : Fin 72, 16 ≤ i.1 → r.blob[i] = 0

/-- The size in bytes of the envelope (R40, R73, R74). -/
def envelopeSize : BcmLayout → Nat
  | .docPacked => 52
  | .lp64 => 72

/-- An ENVELOPE response: the size of the instance's layout, and zeros past it (R63, R65). -/
def Response.isEnvelope (layout : BcmLayout) (r : Response) : Prop :=
  r = { kind := 0x03, blobLen := BitVec.ofNat 32 (envelopeSize layout), blob := r.blob } ∧
    ∀ i : Fin 72, envelopeSize layout ≤ i.1 → r.blob[i] = 0

/-- A MSG_SYNC response (R65, R142). -/
def Response.isMsgSync (r : Response) : Prop :=
  r = { kind := 0x10, value32 := 0x080, node := r.node, len := r.len } ∧
    r.node.toNat ≤ 0x7F ∧ r.len.toNat ≤ 8

/-- A MSG_PDO response: the function code is 0x080 + channel · 0x100 (R65, R143, R167). -/
def Response.isMsgPdo (r : Response) : Prop :=
  r = { kind := 0x11, value32 := r.value32, channel := r.channel, node := r.node, len := r.len, data := r.data } ∧
    (1 ≤ r.channel.toNat ∧ r.channel.toNat ≤ 4) ∧ r.value32.toNat = 0x080 + r.channel.toNat * 0x100 ∧
    r.node.toNat ≤ 0x7F ∧ r.len.toNat ≤ 8

/-- A MSG_NMT_STATE response: the state is the table's for the byte read (R65, R78, R144). -/
def Response.isMsgNmtState (r : Response) : Prop :=
  r = { kind := 0x12, value32 := 0x700, node := r.node, len := r.len, nmtState := r.nmtState, nmtRaw := r.nmtRaw } ∧
    r.nmtState = (nmtStateOf r.nmtRaw).code ∧ r.node.toNat ≤ 0x7F ∧ r.len.toNat ≤ 8

/-- A response an instance with parameters `c` may give (R63 to R67, R180). -/
def Response.legal (c : Config) (r : Response) : Prop :=
  r.isFailure ∨ r.isFields ∨ r.isFrame ∨ r.isEnvelope c.bcmLayout ∨ r.isMsgSync ∨ r.isMsgPdo ∨ r.isMsgNmtState

/-- Every response that waits for the host is legal. -/
def State.Inv (s : State) : Prop := ∀ b ∈ s.responses, (Response.ofBytes b).legal s.cfg

/-! ## Good runs -/

/-- How a run that holds a response counts (93_implementation_defined.md section 1). -/
inductive Treatment where
  | good
  /-- I7: a run that reaches it is never treated as good. -/
  | fault
  /-- I2, I3, I12: no claim about the meaning of the request holds. -/
  | refuse
  deriving DecidableEq, Repr

/-- MALFORMED_FRAME is I7; SDO_UNIMPLEMENTED is I2 and I3; BAD_NODE and BAD_CHANNEL are I12 (log entry 8). -/
def treatment (b : ResponseRecord) : Treatment :=
  if b[0] = Status.code .malformedFrame then .fault
  else if b[0] = Status.code .sdoUnimplemented ∨ b[0] = Status.code .badNode ∨ b[0] = Status.code .badChannel
  then .refuse
  else .good

/-- No response of the run so far was a fault or a refusal in the sense of 93_implementation_defined.md. -/
def State.goodRun (s : State) : Bool := s.responses.all fun b => treatment b = .good

end Sys2Proof.Machine
end

