-- ==== Sys2Proof/Certificates/Slice0/Obligations.lean ====
section
/-!
DEFINITION. The statements for the provers, each `def Obligations.<Name> : Prop`. Every statement about an operation holds for
every configuration of the instance. A next state is written out: the parameters, the waiting requests and every earlier
response are unchanged, and one response record is added at the end.
-/

open Sys2Proof Sys2Proof.Machine

/-! ## Encodings and records -/

/-- Every well-formed instruction, request or classification row, decodes from its encoding in either byte order. The encoder
writes 0 where the operation reads nothing; that choice is the model's, log entry 7. -/
def Obligations.DecodeEncodeRoundTrip : Prop :=
  ∀ (e : Endian) (i : Instr), i.wellFormed = true → decode e (encode e i) = .ok i

/-- Request records of 95_test_vectors.md section 3, the frame record of CC6 of section 2.4, and the frame of that section's NMT
state sweep (id 0x705, byte 0x05) laid out under ENDIAN = BIG (R41, R70), decode to what they stand for. -/
def Obligations.SpecRecordsDecode : Prop :=
  decode .little
      ([0x01, 0x01, 0x02, 0, 0, 0, 0, 0, 0x23, 0x01, 0, 0, 0, 0, 0, 0] ++ List.replicate 8 0
        ++ [0xDE, 0xAD] ++ List.replicate 22 0) =
    .ok (.fenc 0x123 2 #v[0xDE, 0xAD, 0, 0, 0, 0, 0, 0] true false) ∧
  decode .little
      ([0x03, 0x0C, 0, 0, 0, 0, 0, 0, 0x80, 0, 0, 0, 0, 0, 0, 0, 0x10, 0x27] ++ List.replicate 14 0
        ++ [0x80] ++ List.replicate 15 0) =
    .ok (.bcmsetup 0x80 10000 true true #v[0x80, 0, 0, 0, 0, 0, 0, 0, 0, 0, 0, 0, 0, 0, 0, 0]) ∧
  decode .little
      ([0x11, 0x00, 0x03, 0x05, 0x01] ++ List.replicate 19 0 ++ [0x11, 0x22, 0x33] ++ List.replicate 21 0) =
    .ok (.cospdo 5 1 3 #v[0x11, 0x22, 0x33, 0, 0, 0, 0, 0]) ∧
  decode .little ([0x02, 0x10] ++ List.replicate 30 0 ++ [0x80] ++ List.replicate 15 0) = .ok (.illegal 0x02) ∧
  decode .little ([0x85, 0x01, 0, 0, 2, 0, 0, 0, 1, 2] ++ List.replicate 6 0) =
    .ok (.clsPdo1 5 2 #v[1, 2, 0, 0, 0, 0, 0, 0]) ∧
  decode .big ([0, 0, 0x07, 0x05, 1, 0, 0, 0, 5] ++ List.replicate 7 0) = .ok (.clsNmtState 5 1 5)

/-- R61, R62 and R68: what every request record is, and that an illegal one answers ILLEGAL_REQUEST(op). Byte `b[k]` is offset k;
a multi-byte field is written highest byte first, so `b[11] ++ b[10] ++ b[9] ++ b[8]` is the little-endian field at 8. The
decoded instruction holds the fields the operation reads and no others, so every other field is ignored. -/
def Obligations.RequestDecodesBySelectorAndReservedBits : Prop :=
  ∀ b : RequestRecord,
    let reserved : Prop := b[1].extractLsb' 4 4 ≠ 0 ∨ b[6] ≠ 0 ∨ b[7] ≠ 0 ∨ b[12] ≠ 0 ∨ b[13] ≠ 0 ∨ b[14] ≠ 0 ∨ b[15] ≠ 0
    let assigned : Prop := b[0] ∈ [(0x01 : Byte), 0x02, 0x03, 0x10, 0x11, 0x12, 0x13]
    let id32 : Word := b[11] ++ b[10] ++ b[9] ++ b[8]
    let us : DWord := b[23] ++ b[22] ++ b[21] ++ b[20] ++ b[19] ++ b[18] ++ b[17] ++ b[16]
    let data : Payload := Vector.ofFn fun i => b[24 + i.1]
    let frame : Frame := Vector.ofFn fun i => b[32 + i.1]
    (¬ assigned ∨ reserved → decodeRequest b = .illegal b[0] ∧
      ∀ s : State, exec (decodeRequest b) s =
        .next { s with responses :=
          s.responses ++ [Response.toBytes { status := 0x0A, value32 := b[0].setWidth 32 }] }) ∧
    (¬ reserved → b[0] = 0x01 →
      decodeRequest b = .fenc id32 b[2] data (b[1].getLsbD 0) (b[1].getLsbD 1)) ∧
    (¬ reserved → b[0] = 0x02 → decodeRequest b = .fdec frame) ∧
    (¬ reserved → b[0] = 0x03 →
      decodeRequest b = .bcmsetup id32 us (b[1].getLsbD 2) (b[1].getLsbD 3) frame) ∧
    (¬ reserved → b[0] = 0x10 → decodeRequest b = .cocls frame) ∧
    (¬ reserved → b[0] = 0x11 → decodeRequest b = .cospdo b[3] b[4] b[2] data) ∧
    (¬ reserved → b[0] = 0x12 → decodeRequest b = .cosnmt b[3] b[5]) ∧
    (¬ reserved → b[0] = 0x13 → decodeRequest b = .cossdo)

/-- The fields of R60 cover a request record without gap or overlap: no bit is dropped when it is read field by field. -/
def Obligations.RequestFieldsCoverTheRecord : Prop :=
  ∀ b : RequestRecord, (Request.ofBytes b).toBytes = b

/-- The byte layout of the response record (R63). -/
def Obligations.ResponseRecordLayout : Prop :=
  ∀ r : Response,
    let b := r.toBytes
    b[0] = r.status ∧ b[1] = r.kind ∧ b[2] = r.oflags ∧ b[3] = r.len ∧ b[4] = r.channel ∧ b[5] = r.nmtState ∧
    b[6] = r.node ∧ b[7] = r.nmtRaw ∧
    b[11] ++ b[10] ++ b[9] ++ b[8] = r.value32 ∧ b[15] ++ b[14] ++ b[13] ++ b[12] = r.blobLen ∧
    (∀ i : Fin 8, b[16 + i.1] = r.data[i]) ∧ ∀ i : Fin 72, b[24 + i.1] = r.blob[i]

/-- R41: the value of a field is the sum of its bytes, weighted from its first byte up (LITTLE) or down (BIG), and the bytes
`MemWrite` puts there read back as the value written. -/
def Obligations.MultiByteFieldsFollowEndian : Prop :=
  (∀ (m : Nat) (v : Bytes m) (off n : Nat) (h : off + n ≤ m),
    memRead .little v off n h = ∑ i : Fin n, v[off + i.1].toNat * 2 ^ (8 * i.1) ∧
    memRead .big v off n h = ∑ i : Fin n, v[off + i.1].toNat * 2 ^ (8 * (n - 1 - i.1))) ∧
  ∀ (e : Endian) (m : Nat) (v : Bytes m) (off n w : Nat) (h : off + n ≤ m), w < 2 ^ (8 * n) →
    (∀ i : Fin n, some v[off + i.1] = (memBytes e n w)[i.1]?) → memRead e v off n h = w

/-- The frame record of R70 byte by byte: the raw field in ENDIAN order, the length, zero padding, the buffer. -/
def Obligations.FrameRecordLayout : Prop :=
  ∀ (e : Endian) (raw : Word) (len : Byte) (buf : Payload),
    let f := mkFrame e raw len buf
    (∀ i : Fin 4, f[i.1] =
      match e with
      | .little => raw.extractLsb' (8 * i.1) 8
      | .big => raw.extractLsb' (8 * (3 - i.1)) 8) ∧
    f[4] = len ∧ f[5] = 0 ∧ f[6] = 0 ∧ f[7] = 0 ∧ ∀ i : Fin 8, f[8 + i.1] = buf[i]

/-- A frame record the classification table accepts gives a well-formed row; any other record has a length byte above 8. -/
def Obligations.ClassifiedRowsAreWellFormed : Prop :=
  ∀ (e : Endian) (f : Frame),
    (∃ i, decodeFrame e f = .ok i ∧ i.wellFormed = true ∧ (dlen f).toNat ≤ 8) ∨
    (decodeFrame e f = .error (.malformedFrame (dlen f)) ∧ 8 < (dlen f).toNat)

/-! ## FENC -/

/-- FENC on accepted operands: the FRAME response, and its record field by field (R101, R102, R104). -/
def Obligations.FencBuildsTheFrame : Prop :=
  ∀ (id : Word) (len : Byte) (data : Payload) (rtr err : Bool) (s : State),
    len.toNat ≤ 8 → id.toNat ≤ 0x1FFFFFFF →
    ∃ r : Response,
      exec (.fenc id len data rtr err) s = .next { s with responses := s.responses ++ [r.toBytes] } ∧
      r = { kind := 0x02, blobLen := 16, blob := r.blob } ∧ (∀ i : Fin 72, 16 ≤ i.1 → r.blob[i] = 0) ∧
      (rawId s.cfg.endian r.frame).extractLsb' 0 29 = id.extractLsb' 0 29 ∧
      (rawId s.cfg.endian r.frame).getLsbD 31 = decide (0x7FF < id.toNat) ∧
      (rawId s.cfg.endian r.frame).getLsbD 30 = rtr ∧ (rawId s.cfg.endian r.frame).getLsbD 29 = err ∧
      dlen r.frame = len ∧ r.frame[5] = 0 ∧ r.frame[6] = 0 ∧ r.frame[7] = 0 ∧
      ∀ i : Fin 8, r.frame[8 + i.1] = if i.1 < len.toNat then data[i] else 0

/-- R103: the length is checked first, and the identifier only when the length is accepted. -/
def Obligations.FencRejectsLengthThenIdentifier : Prop :=
  ∀ (id : Word) (len : Byte) (data : Payload) (rtr err : Bool) (s : State),
    (8 < len.toNat →
      exec (.fenc id len data rtr err) s =
        .next { s with responses :=
          s.responses ++ [Response.toBytes { status := 0x01, value32 := len.setWidth 32 }] }) ∧
    (len.toNat ≤ 8 → 0x1FFFFFFF < id.toNat →
      exec (.fenc id len data rtr err) s =
        .next { s with responses := s.responses ++ [Response.toBytes { status := 0x02, value32 := id }] })

/-- R130: FDEC on the record FENC made gives the operands back, on any instance with the same byte order. -/
def Obligations.FdecInvertsFenc : Prop :=
  ∀ (id : Word) (len : Byte) (data : Payload) (rtr err : Bool) (s s' : State),
    len.toNat ≤ 8 → id.toNat ≤ 0x1FFFFFFF → s'.cfg.endian = s.cfg.endian →
    ∃ r d : Response,
      exec (.fenc id len data rtr err) s = .next { s with responses := s.responses ++ [r.toBytes] } ∧
      exec (.fdec r.frame) s' = .next { s' with responses := s'.responses ++ [d.toBytes] } ∧
      d.status = 0 ∧ d.kind = 0x01 ∧ d.value32 = id ∧
      d.oflags.getLsbD 0 = decide (0x7FF < id.toNat) ∧ d.oflags.getLsbD 1 = rtr ∧ d.oflags.getLsbD 2 = err ∧
      d.len = len ∧ ∀ i : Fin 8, i.1 < len.toNat → d.data[i] = data[i]

/-- FENC is injective on its accepted operands, and the payload operand past the length does not reach the record (R131). -/
def Obligations.FencRecordDeterminesItsOperands : Prop :=
  ∀ (id id' : Word) (len len' : Byte) (data data' : Payload) (rtr rtr' err err' : Bool) (s : State),
    len.toNat ≤ 8 → len'.toNat ≤ 8 → id.toNat ≤ 0x1FFFFFFF → id'.toNat ≤ 0x1FFFFFFF →
    (exec (.fenc id len data rtr err) s = exec (.fenc id' len' data' rtr' err') s ↔
      id = id' ∧ rtr = rtr' ∧ err = err' ∧ len = len' ∧ ∀ i : Fin 8, i.1 < len.toNat → data[i] = data'[i])

/-! ## FDEC and the validity of a frame operand -/

/-- FDEC on a valid record: the FIELDS response field by field (R111, R112, R113); `raw` is the 4-byte field at offset 0. -/
def Obligations.FdecReadsTheFields : Prop :=
  ∀ (f : Frame) (s : State), (dlen f).toNat ≤ 8 →
    let raw : Word :=
      match s.cfg.endian with
      | .little => f[3] ++ f[2] ++ f[1] ++ f[0]
      | .big => f[0] ++ f[1] ++ f[2] ++ f[3]
    ∃ r : Response,
      exec (.fdec f) s = .next { s with responses := s.responses ++ [r.toBytes] } ∧
      r = { kind := 0x01, value32 := r.value32, oflags := r.oflags, len := f[4], data := r.data } ∧
      r.value32 = (if raw.getLsbD 31 then raw &&& 0x1FFFFFFF else raw &&& 0x7FF) ∧
      r.oflags.getLsbD 0 = raw.getLsbD 31 ∧ r.oflags.getLsbD 1 = raw.getLsbD 30 ∧
      r.oflags.getLsbD 2 = raw.getLsbD 29 ∧ r.oflags.extractLsb' 3 5 = 0 ∧
      ∀ i : Fin 8, r.data[i] = if i.1 < f[4].toNat then f[8 + i.1] else 0

/-- An invalid frame operand: FDEC, COCLS and BCMSETUP answer MALFORMED_FRAME with the length byte, before the operation's other
checks (R27, R114, R125, R140; R182 puts only ILLEGAL_REQUEST before it, which is decided when the request is decoded). -/
def Obligations.MalformedFrameRejectedFirst : Prop :=
  ∀ (f : Frame) (s : State), 8 < (dlen f).toNat →
    let t := { s with responses :=
      s.responses ++ [Response.toBytes { status := 0x05, value32 := (dlen f).setWidth 32 }] }
    exec (.fdec f) s = .next t ∧ exec (.cocls f) s = .next t ∧
    ∀ (id32 : Word) (us : DWord) (setTimer startTimer : Bool),
      exec (.bcmsetup id32 us setTimer startTimer f) s = .next t

/-- FDEC reads the identifier field, the length byte and the payload up to the length, and nothing else of the record. -/
def Obligations.FdecIgnoresPaddingAndTail : Prop :=
  ∀ (f g : Frame) (s : State),
    (∀ i : Fin 5, f[i.1] = g[i.1]) → (∀ i : Fin 8, i.1 < (dlen f).toNat → f[8 + i.1] = g[8 + i.1]) →
    exec (.fdec f) s = exec (.fdec g) s

/-! ## BCMSETUP -/

/-- The DOC_PACKED envelope of R73, field by field, with the split of R121, the flags of R123 and the identifier of R124. -/
def Obligations.BcmsetupWritesDocPackedEnvelope : Prop :=
  ∀ (id32 : Word) (us : DWord) (setTimer startTimer : Bool) (f : Frame) (s : State),
    s.cfg.bcmLayout = .docPacked → (dlen f).toNat ≤ 8 → us.toNat / 1000000 ≤ 0x7FFFFFFF →
    ∃ r : Response,
      exec (.bcmsetup id32 us setTimer startTimer f) s =
        .next { s with responses := s.responses ++ [r.toBytes] } ∧
      r = { kind := 0x03, blobLen := 52, blob := r.blob } ∧
      memRead s.cfg.endian r.blob 0 4 = 1 ∧
      memRead s.cfg.endian r.blob 4 4 = (if setTimer then 1 else 0) + (if startTimer then 2 else 0) ∧
      memRead s.cfg.endian r.blob 8 4 = 0 ∧
      memRead s.cfg.endian r.blob 12 4 = (if s.cfg.bcmIval1 = .zero then 0 else us.toNat / 1000000) ∧
      memRead s.cfg.endian r.blob 16 4 = (if s.cfg.bcmIval1 = .zero then 0 else us.toNat % 1000000) ∧
      memRead s.cfg.endian r.blob 20 4 = us.toNat / 1000000 ∧
      memRead s.cfg.endian r.blob 24 4 = us.toNat % 1000000 ∧
      memRead s.cfg.endian r.blob 28 4 = id32.toNat ∧
      memRead s.cfg.endian r.blob 32 4 = 1 ∧
      (∀ i : Fin 16, r.blob[36 + i.1] = f[i]) ∧ ∀ i : Fin 72, 52 ≤ i.1 → r.blob[i] = 0

/-- The LP64 envelope of R74, field by field, for every interval. The layout is general knowledge about a Linux structure, which
R74 marks as not in the source: log entry 9 (PRESUMED). -/
def Obligations.BcmsetupWritesLp64Envelope : Prop :=
  ∀ (id32 : Word) (us : DWord) (setTimer startTimer : Bool) (f : Frame) (s : State),
    s.cfg.bcmLayout = .lp64 → (dlen f).toNat ≤ 8 →
    ∃ r : Response,
      exec (.bcmsetup id32 us setTimer startTimer f) s =
        .next { s with responses := s.responses ++ [r.toBytes] } ∧
      r = { kind := 0x03, blobLen := 72, blob := r.blob } ∧
      memRead s.cfg.endian r.blob 0 4 = 1 ∧
      memRead s.cfg.endian r.blob 4 4 = (if setTimer then 1 else 0) + (if startTimer then 2 else 0) ∧
      memRead s.cfg.endian r.blob 8 4 = 0 ∧ memRead s.cfg.endian r.blob 12 4 = 0 ∧
      memRead s.cfg.endian r.blob 16 8 = (if s.cfg.bcmIval1 = .zero then 0 else us.toNat / 1000000) ∧
      memRead s.cfg.endian r.blob 24 8 = (if s.cfg.bcmIval1 = .zero then 0 else us.toNat % 1000000) ∧
      memRead s.cfg.endian r.blob 32 8 = us.toNat / 1000000 ∧
      memRead s.cfg.endian r.blob 40 8 = us.toNat % 1000000 ∧
      memRead s.cfg.endian r.blob 48 4 = id32.toNat ∧
      memRead s.cfg.endian r.blob 52 4 = 1 ∧
      ∀ i : Fin 16, r.blob[56 + i.1] = f[i]

/-- R126: only DOC_PACKED limits the seconds, and the value is saturated, not truncated. -/
def Obligations.OnlyDocPackedLimitsTheInterval : Prop :=
  ∀ (id32 : Word) (us : DWord) (setTimer startTimer : Bool) (f : Frame) (s : State), (dlen f).toNat ≤ 8 →
    (s.cfg.bcmLayout = .docPacked → 0x7FFFFFFF < us.toNat / 1000000 →
      exec (.bcmsetup id32 us setTimer startTimer f) s =
        .next { s with responses := s.responses ++
          [Response.toBytes
            { status := 0x09, value32 := BitVec.ofNat 32 (min (us.toNat / 1000000) 0xFFFFFFFF) }] }) ∧
    (s.cfg.bcmLayout = .lp64 ∨ us.toNat / 1000000 ≤ 0x7FFFFFFF →
      ∃ b : ResponseRecord,
        exec (.bcmsetup id32 us setTimer startTimer f) s = .next { s with responses := s.responses ++ [b] } ∧
        b[0] = 0)

/-! ## COCLS -/

/-- COCLS on a frame is the row of the classification table that the frame decodes to (R140, R141). That a row is an instruction
with an outcome of its own is the model's reading, log entry 6 (DEDUCED, DESIGN CHOICE). -/
def Obligations.CoclsRunsTheRowOfTheFrame : Prop :=
  ∀ (f : Frame) (i : Instr) (s : State), decodeFrame s.cfg.endian f = .ok i → exec (.cocls f) s = exec i s

/-- R142 and R151: every identifier 0x080..0x0FF is a SyncPulse, whatever the payload. -/
def Obligations.CoclsAnswersSync : Prop :=
  ∀ (f : Frame) (s : State), (dlen f).toNat ≤ 8 →
    let id := numericId (rawId s.cfg.endian f)
    (id &&& 0xF80 = 0x080 →
      exec (.cocls f) s =
        .next { s with responses := s.responses ++
          [Response.toBytes
            { kind := 0x10, value32 := 0x080, node := (id &&& 0x7F).setWidth 8, len := dlen f }] }) ∧
    (0x080 ≤ id.toNat → id.toNat ≤ 0x0FF → id &&& 0xF80 = 0x080)

/-- R143: function codes 0x180, 0x280, 0x380, 0x480 are ProcessData on channels 1 to 4 with the whole buffer. -/
def Obligations.CoclsAnswersProcessData : Prop :=
  ∀ (f : Frame) (k : Byte) (s : State), (dlen f).toNat ≤ 8 → 1 ≤ k.toNat → k.toNat ≤ 4 →
    let id := numericId (rawId s.cfg.endian f)
    (id &&& 0xF80).toNat = 0x080 + k.toNat * 0x100 →
    exec (.cocls f) s =
      .next { s with responses := s.responses ++
        [Response.toBytes
          { kind := 0x11, value32 := id &&& 0xF80, channel := k, node := (id &&& 0x7F).setWidth 8,
            len := dlen f, data := fdata f }] }

/-- R144 and R145: function code 0x700 is the NMT state of buffer byte 0; at length 0 the instance's policy decides. -/
def Obligations.CoclsAnswersNmtState : Prop :=
  ∀ (f : Frame) (s : State), (dlen f).toNat ≤ 8 →
    let id := numericId (rawId s.cfg.endian f)
    id &&& 0xF80 = 0x700 →
    (dlen f ≠ 0 ∨ s.cfg.nmtEmptyPolicy = .readBuffer →
      exec (.cocls f) s =
        .next { s with responses := s.responses ++
          [Response.toBytes
            { kind := 0x12, value32 := 0x700, node := (id &&& 0x7F).setWidth 8, len := dlen f, nmtRaw := f[8],
              nmtState := if f[8] = 0x04 then 1 else if f[8] = 0x05 then 2 else if f[8] = 0x7F then 3 else 0 }] }) ∧
    (dlen f = 0 → s.cfg.nmtEmptyPolicy = .fault →
      exec (.cocls f) s =
        .next { s with responses :=
          s.responses ++ [Response.toBytes { status := 0x0B, value32 := 0x700 }] })

/-- R146 and R147: 0x580 is SDO_UNIMPLEMENTED, and every code outside the table UNRECOGNIZED_ID with the masked value. -/
def Obligations.CoclsRejectsSdoAndUnrecognized : Prop :=
  ∀ (f : Frame) (s : State), (dlen f).toNat ≤ 8 →
    let fc := numericId (rawId s.cfg.endian f) &&& 0xF80
    (fc = 0x580 →
      exec (.cocls f) s =
        .next { s with responses :=
          s.responses ++ [Response.toBytes { status := 0x04, value32 := 0x580 }] }) ∧
    (fc ∉ [(0x080 : Word), 0x180, 0x280, 0x380, 0x480, 0x580, 0x700] →
      exec (.cocls f) s =
        .next { s with responses := s.responses ++ [Response.toBytes { status := 0x03, value32 := fc }] })

/-- R148: only bits 11:0 of the identifier, the length and the buffer reach the response; no flag filters a frame. -/
def Obligations.CoclsFiltersNoFlag : Prop :=
  ∀ (f g : Frame) (s : State), dlen f = dlen g → fdata f = fdata g →
    numericId (rawId s.cfg.endian f) &&& 0xFFF = numericId (rawId s.cfg.endian g) &&& 0xFFF →
    exec (.cocls f) s = exec (.cocls g) s

/-- R150: the responses of COCLS are SyncPulse, ProcessData, NetworkManagementState or a failure, and a message carries the
node of the identifier. -/
def Obligations.CoclsYieldsThreeMessagesOnly : Prop :=
  ∀ (f : Frame) (s : State), ∃ r : Response,
    exec (.cocls f) s = .next { s with responses := s.responses ++ [r.toBytes] } ∧
    ((r.status ≠ 0 ∧ r.kind = 0) ∨
      (r.status = 0 ∧ (r.kind = 0x10 ∨ r.kind = 0x11 ∨ r.kind = 0x12) ∧
        r.node = (numericId (rawId s.cfg.endian f) &&& 0x7F).setWidth 8))

/-- R167: the identifier of a classified PDO with bits 28:12 zero is 0x080 + k · 0x100 + m, and `value32 OR node`. -/
def Obligations.ClassifiedPdoRebuildsItsIdentifier : Prop :=
  (∀ (f : Frame) (r : Response) (s : State),
    exec (.cocls f) s = .next { s with responses := s.responses ++ [r.toBytes] } → r.kind = 0x11 →
    (numericId (rawId s.cfg.endian f)).toNat < 0x1000 →
    (numericId (rawId s.cfg.endian f)).toNat = 0x080 + r.channel.toNat * 0x100 + r.node.toNat ∧
    numericId (rawId s.cfg.endian f) = r.value32 ||| r.node.setWidth 32) ∧
  ∀ (f g : Frame) (s : State), dlen f = dlen g → fdata f = fdata g →
    numericId (rawId s.cfg.endian f) &&& 0xFFF = numericId (rawId s.cfg.endian g) &&& 0xFFF →
    exec (.cocls f) s = exec (.cocls g) s

/-! ## COSPDO, COSNMT, COSSDO -/

/-- COSPDO on accepted operands: the FRAME response and its record (R160). -/
def Obligations.CospdoBuildsThePdoFrame : Prop :=
  ∀ (node channel len : Byte) (data : Payload) (s : State),
    node.toNat ≤ 0x7F → 1 ≤ channel.toNat → channel.toNat ≤ 4 → len.toNat ≤ 8 →
    ∃ r : Response,
      exec (.cospdo node channel len data) s = .next { s with responses := s.responses ++ [r.toBytes] } ∧
      r = { kind := 0x02, blobLen := 16, blob := r.blob } ∧ (∀ i : Fin 72, 16 ≤ i.1 → r.blob[i] = 0) ∧
      (rawId s.cfg.endian r.frame).toNat = 0x100 + channel.toNat * 0x100 + node.toNat ∧
      dlen r.frame = len ∧ r.frame[5] = 0 ∧ r.frame[6] = 0 ∧ r.frame[7] = 0 ∧
      ∀ i : Fin 8, r.frame[8 + i.1] = if i.1 < len.toNat then data[i] else 0

/-- The COSPDO record equals the FENC record for the base OR the node, with both flags clear (R160). -/
def Obligations.CospdoIsFencOfBaseOrNode : Prop :=
  ∀ (node channel len : Byte) (data : Payload) (base : Word) (s : State),
    node.toNat ≤ 0x7F →
    ((channel = 1 ∧ base = 0x200) ∨ (channel = 2 ∧ base = 0x300) ∨ (channel = 3 ∧ base = 0x400) ∨
      (channel = 4 ∧ base = 0x500)) →
    exec (.cospdo node channel len data) s = exec (.fenc (base ||| node.setWidth 32) len data false false) s

/-- R161: an out-of-range channel, then an out-of-range node, is rejected and not ORed in; the length comes last. -/
def Obligations.CospdoRejectsChannelNodeLength : Prop :=
  ∀ (node channel len : Byte) (data : Payload) (s : State),
    (channel.toNat < 1 ∨ 4 < channel.toNat →
      exec (.cospdo node channel len data) s =
        .next { s with responses :=
          s.responses ++ [Response.toBytes { status := 0x07, value32 := channel.setWidth 32 }] }) ∧
    (1 ≤ channel.toNat → channel.toNat ≤ 4 → 0x7F < node.toNat →
      exec (.cospdo node channel len data) s =
        .next { s with responses :=
          s.responses ++ [Response.toBytes { status := 0x06, value32 := node.setWidth 32 }] }) ∧
    (1 ≤ channel.toNat → channel.toNat ≤ 4 → node.toNat ≤ 0x7F → 8 < len.toNat →
      exec (.cospdo node channel len data) s =
        .next { s with responses :=
          s.responses ++ [Response.toBytes { status := 0x01, value32 := len.setWidth 32 }] })

/-- COSNMT on accepted operands: the FRAME response and its record, with the payload byte of R79 (R162). -/
def Obligations.CosnmtBuildsTheCommandFrame : Prop :=
  ∀ (node cmd payload : Byte) (s : State), node.toNat ≤ 0x7F →
    ((cmd = 0 ∧ payload = 0x01) ∨ (cmd = 1 ∧ payload = 0x02) ∨ (cmd = 2 ∧ payload = 0x80) ∨
      (cmd = 3 ∧ payload = 0x81) ∨ (cmd = 4 ∧ payload = 0x82)) →
    ∃ r : Response,
      exec (.cosnmt node cmd) s = .next { s with responses := s.responses ++ [r.toBytes] } ∧
      r = { kind := 0x02, blobLen := 16, blob := r.blob } ∧ (∀ i : Fin 72, 16 ≤ i.1 → r.blob[i] = 0) ∧
      (rawId s.cfg.endian r.frame).toNat = 0x700 + node.toNat ∧
      dlen r.frame = 1 ∧ r.frame[5] = 0 ∧ r.frame[6] = 0 ∧ r.frame[7] = 0 ∧
      r.frame[8] = payload ∧ ∀ i : Fin 7, r.frame[9 + i.1] = 0

/-- COSNMT rejects a command code above 4, then a node above 0x7F (R79, R162, R183). -/
def Obligations.CosnmtRejectsCommandThenNode : Prop :=
  ∀ (node cmd : Byte) (s : State),
    (4 < cmd.toNat →
      exec (.cosnmt node cmd) s =
        .next { s with responses :=
          s.responses ++ [Response.toBytes { status := 0x08, value32 := cmd.setWidth 32 }] }) ∧
    (cmd.toNat ≤ 4 → 0x7F < node.toNat →
      exec (.cosnmt node cmd) s =
        .next { s with responses :=
          s.responses ++ [Response.toBytes { status := 0x06, value32 := node.setWidth 32 }] })

/-- R164: a frame COSPDO or COSNMT makes has EFF, RTR and ERR clear and an identifier of at most 0x77F. -/
def Obligations.SerializedFramesAreStandard : Prop :=
  ∀ (i : Instr) (r : Response) (s : State),
    ((∃ node channel len data, i = .cospdo node channel len data) ∨ ∃ node cmd, i = .cosnmt node cmd) →
    exec i s = .next { s with responses := s.responses ++ [r.toBytes] } → r.status = 0 →
    (rawId s.cfg.endian r.frame).getLsbD 31 = false ∧ (rawId s.cfg.endian r.frame).getLsbD 30 = false ∧
    (rawId s.cfg.endian r.frame).getLsbD 29 = false ∧ (rawId s.cfg.endian r.frame).toNat ≤ 0x77F

/-- R165: COCLS on the record COSPDO made answers UNRECOGNIZED_ID with the channel's to-device base. -/
def Obligations.ClassifyOfSerializedPdoIsUnrecognized : Prop :=
  ∀ (node channel len : Byte) (data : Payload) (s s' : State),
    node.toNat ≤ 0x7F → 1 ≤ channel.toNat → channel.toNat ≤ 4 → len.toNat ≤ 8 →
    s'.cfg.endian = s.cfg.endian →
    ∃ r : Response,
      exec (.cospdo node channel len data) s = .next { s with responses := s.responses ++ [r.toBytes] } ∧
      exec (.cocls r.frame) s' =
        .next { s' with responses := s'.responses ++
          [Response.toBytes
            { status := 0x03, value32 := BitVec.ofNat 32 (0x100 + channel.toNat * 0x100) }] }

/-- R166: COCLS on the record COSNMT made answers the NMT state Initializing with the command byte and the node. -/
def Obligations.ClassifyOfSerializedCommandIsInitializing : Prop :=
  ∀ (node cmd payload : Byte) (s s' : State), node.toNat ≤ 0x7F → s'.cfg.endian = s.cfg.endian →
    ((cmd = 0 ∧ payload = 0x01) ∨ (cmd = 1 ∧ payload = 0x02) ∨ (cmd = 2 ∧ payload = 0x80) ∨
      (cmd = 3 ∧ payload = 0x81) ∨ (cmd = 4 ∧ payload = 0x82)) →
    ∃ r : Response,
      exec (.cosnmt node cmd) s = .next { s with responses := s.responses ++ [r.toBytes] } ∧
      exec (.cocls r.frame) s' =
        .next { s' with responses := s'.responses ++
          [Response.toBytes
            { kind := 0x12, value32 := 0x700, node := node, len := 1, nmtRaw := payload, nmtState := 0 }] }

/-- R163: COSSDO is rejected whatever its operands, and a set reserved bit comes first. -/
def Obligations.CossdoAlwaysUnimplemented : Prop :=
  (∀ s : State,
    exec .cossdo s =
      .next { s with responses :=
        s.responses ++ [Response.toBytes { status := 0x04, value32 := 0x580 }] }) ∧
  ∀ (s : State) (b : RequestRecord) (rest : List RequestRecord), s.requests = b :: rest → b[0] = 0x13 →
    step s =
      .next { s with requests := rest, responses := s.responses ++
        [Response.toBytes
          (if b[1].extractLsb' 4 4 ≠ 0 ∨ b[6] ≠ 0 ∨ b[7] ≠ 0 ∨ b[12] ≠ 0 ∨ b[13] ≠ 0 ∨ b[14] ≠ 0 ∨ b[15] ≠ 0
           then { status := 0x0A, value32 := 0x13 }
           else { status := 0x04, value32 := 0x580 })] }

/-! ## The illegal request and the classification rows as instructions -/

/-- ILLEGAL answers ILLEGAL_REQUEST with the `op` byte (R61, R62). -/
def Obligations.IllegalRequestNamesTheSelector : Prop :=
  ∀ (op : Byte) (s : State),
    exec (.illegal op) s =
      .next { s with responses :=
        s.responses ++ [Response.toBytes { status := 0x0A, value32 := op.setWidth 32 }] }

/-- The message rows of the classification table: CLS_SYNC and CLS_PDO1 to CLS_PDO4 (R142, R143, R65). That a row runs as an
instruction by itself, also for a length above 8 that no frame decodes to, is log entry 6 (DESIGN CHOICE). -/
def Obligations.SyncAndPdoRowsAnswer : Prop :=
  ∀ (node : NodeAddr) (len : Byte) (data : Payload) (s : State),
    exec (.clsSync node len) s =
      .next { s with responses := s.responses ++
        [Response.toBytes { kind := 0x10, value32 := 0x080, node := node.setWidth 8, len }] } ∧
    exec (.clsPdo1 node len data) s =
      .next { s with responses := s.responses ++
        [Response.toBytes { kind := 0x11, value32 := 0x180, channel := 1, node := node.setWidth 8, len, data }] } ∧
    exec (.clsPdo2 node len data) s =
      .next { s with responses := s.responses ++
        [Response.toBytes { kind := 0x11, value32 := 0x280, channel := 2, node := node.setWidth 8, len, data }] } ∧
    exec (.clsPdo3 node len data) s =
      .next { s with responses := s.responses ++
        [Response.toBytes { kind := 0x11, value32 := 0x380, channel := 3, node := node.setWidth 8, len, data }] } ∧
    exec (.clsPdo4 node len data) s =
      .next { s with responses := s.responses ++
        [Response.toBytes { kind := 0x11, value32 := 0x480, channel := 4, node := node.setWidth 8, len, data }] }

/-- The CLS_NMT_STATE row (R78, R144, R145). That it runs as an instruction by itself, also for a length above 8 that no frame
decodes to, is log entry 6 (DESIGN CHOICE). -/
def Obligations.NmtStateRowAnswers : Prop :=
  ∀ (node : NodeAddr) (len state : Byte) (s : State),
    (len ≠ 0 ∨ s.cfg.nmtEmptyPolicy = .readBuffer →
      exec (.clsNmtState node len state) s =
        .next { s with responses := s.responses ++
          [Response.toBytes
            { kind := 0x12, value32 := 0x700, node := node.setWidth 8, len, nmtRaw := state,
              nmtState := if state = 0x04 then 1 else if state = 0x05 then 2 else if state = 0x7F then 3 else 0 }] }) ∧
    (len = 0 → s.cfg.nmtEmptyPolicy = .fault →
      exec (.clsNmtState node len state) s =
        .next { s with responses :=
          s.responses ++ [Response.toBytes { status := 0x0B, value32 := 0x700 }] })

/-- The rejecting rows CLS_SDO and CLS_UNRECOGNIZED (R146, R147). That a row runs as an instruction by itself, and CLS_UNRECOGNIZED
also for the seven codes of the table, for which it is no well-formed row, is log entry 6 (DESIGN CHOICE). -/
def Obligations.RejectingRowsAnswer : Prop :=
  ∀ (node : NodeAddr) (code : ClassCode) (s : State),
    exec (.clsSdo node) s =
      .next { s with responses := s.responses ++ [Response.toBytes { status := 0x04, value32 := 0x580 }] } ∧
    exec (.clsUnrecognized code node) s =
      .next { s with responses := s.responses ++
        [Response.toBytes { status := 0x03, value32 := code.setWidth 32 <<< 7 }] }

/-! ## The machine -/

/-- A step performs the oldest presented request, which leaves the queue (R22, R68). That the block stays idle with none
presented is the model's choice, log entry 3. -/
def Obligations.StepRunsTheDecodedRequest : Prop :=
  ∀ s : State,
    (∀ (b : RequestRecord) (rest : List RequestRecord), s.requests = b :: rest →
      step s = exec (decodeRequest b) { s with requests := rest }) ∧
    (s.requests = [] → step s = .next s)

/-- A table word laid out as the next instruction is what the next step runs (log entries 4 and 5): a REQ word as the request,
an ID29 word as the frame a COCLS request classifies. -/
def Obligations.TableWordRunsAsTheNextInstruction : Prop :=
  ∀ (s : State) (nbits w : Nat) (i : Instr), decodeTableWord nbits w = some i →
    step (s.withFetchWord nbits w) = exec i s

/-- R47: an operation has no effect beyond its own response, and the same request gives the same response again. -/
def Obligations.OperationsOnlyAddTheirResponse : Prop :=
  ∀ (i : Instr) (s : State), ∃ r : Response,
    exec i s = .next { s with responses := s.responses ++ [r.toBytes] } ∧
    exec i { s with responses := s.responses ++ [r.toBytes] } =
      .next { s with responses := s.responses ++ [r.toBytes, r.toBytes] }

/-- R20: the response is a function of the request and the parameters, whatever came before. -/
def Obligations.ResponseDependsOnRequestAndParametersOnly : Prop :=
  ∀ (b : RequestRecord) (s s' : State) (rest rest' : List RequestRecord), s.cfg = s'.cfg →
    s.requests = b :: rest → s'.requests = b :: rest' →
    ∃ c : ResponseRecord,
      step s = .next { s with requests := rest, responses := s.responses ++ [c] } ∧
      step s' = .next { s' with requests := rest', responses := s'.responses ++ [c] }

/-- R49: presented requests are answered one at a time in the order presented, response k a function of request k. -/
def Obligations.QueuedRequestsAnsweredInOrder : Prop :=
  ∃ answer : Config → RequestRecord → ResponseRecord, ∀ s : State,
    Sys2Proof.core.run s.requests.length s =
      .next { s with requests := [], responses := s.responses ++ s.requests.map (answer s.cfg) }

/-- Presenting another request while one waits changes neither the answer of the waiting one nor its place (R205). -/
def Obligations.LaterRequestsDoNotChangeEarlierAnswers : Prop :=
  ∀ (s t : State) (b : RequestRecord), s.requests ≠ [] → step s = .next t →
    step (s.present b) = .next (t.present b)

/-- R180: a failing response holds its status, one of the eleven failure codes, and its value; every other byte is 0. -/
def Obligations.FailureHoldsStatusAndValueOnly : Prop :=
  ∀ (i : Instr) (s : State) (b : ResponseRecord),
    exec i s = .next { s with responses := s.responses ++ [b] } → b[0] ≠ 0 →
    b[0].toNat ≤ 0x0B ∧ ∀ j : Fin 96, j.1 ≠ 0 → (j.1 < 8 ∨ 12 ≤ j.1) → b[j] = 0

/-- R183: the status each operation answers, by the order of its checks; 0 is OK. -/
def Obligations.CheckOrderDecidesTheStatus : Prop :=
  ∀ s : State,
    (∀ id len data rtr err, ∃ b, exec (.fenc id len data rtr err) s = .next { s with responses := s.responses ++ [b] } ∧
      b[0] = if 8 < len.toNat then 0x01 else if 0x1FFFFFFF < id.toNat then 0x02 else 0) ∧
    (∀ f, ∃ b, exec (.fdec f) s = .next { s with responses := s.responses ++ [b] } ∧
      b[0] = if 8 < (dlen f).toNat then 0x05 else 0) ∧
    (∀ id us st sa f, ∃ b, exec (.bcmsetup id us st sa f) s = .next { s with responses := s.responses ++ [b] } ∧
      b[0] = if 8 < (dlen f).toNat then 0x05
        else if s.cfg.bcmLayout = .docPacked ∧ 0x7FFFFFFF < us.toNat / 1000000 then 0x09 else 0) ∧
    (∀ f, ∃ b, exec (.cocls f) s = .next { s with responses := s.responses ++ [b] } ∧
      b[0] =
        let fc := numericId (rawId s.cfg.endian f) &&& 0xF80
        if 8 < (dlen f).toNat then 0x05
        else if fc = 0x700 then (if dlen f = 0 ∧ s.cfg.nmtEmptyPolicy = .fault then 0x0B else 0)
        else if fc = 0x580 then 0x04
        else if fc ∈ [(0x080 : Word), 0x180, 0x280, 0x380, 0x480] then 0
        else 0x03) ∧
    (∀ node channel len data, ∃ b,
      exec (.cospdo node channel len data) s = .next { s with responses := s.responses ++ [b] } ∧
      b[0] = if channel.toNat < 1 ∨ 4 < channel.toNat then 0x07 else if 0x7F < node.toNat then 0x06
        else if 8 < len.toNat then 0x01 else 0) ∧
    (∀ node cmd, ∃ b, exec (.cosnmt node cmd) s = .next { s with responses := s.responses ++ [b] } ∧
      b[0] = if 4 < cmd.toNat then 0x08 else if 0x7F < node.toNat then 0x06 else 0) ∧
    ∃ b, exec .cossdo s = .next { s with responses := s.responses ++ [b] } ∧ b[0] = 0x04

/-- Every step keeps every waiting response legal: R63 to R67 and R180 hold of each, for the instance's parameters. -/
def Obligations.StepKeepsResponsesLegal : Prop :=
  ∀ s t : State, s.Inv → step s = .next t → t.Inv

/-- After reset every waiting response is legal: none waits (R31, R200). -/
def Obligations.ResetStateIsLegal : Prop :=
  State.reset.Inv ∧ State.reset.requests = [] ∧ State.reset.responses = []

/-- R200 to R202: reset leaves the block idle with its parameters unchanged, unanswered requests are discarded, and the first
response answers the first request presented after reset, as the same request is answered on any state with those parameters: no
wake-up is needed and no state is lost (R192). That responses not yet taken are discarded too is log entry 16 (DEDUCED). -/
def Obligations.ResetDiscardsRequestsAndKeepsParameters : Prop :=
  ∀ s : State,
    s.applyReset = { cfg := s.cfg, requests := [], responses := [] } ∧
    ∀ b : RequestRecord, ∃ c : ResponseRecord,
      step (s.applyReset.present b) = .next { cfg := s.cfg, requests := [], responses := [c] } ∧
      ∀ (s' : State) (rest : List RequestRecord), s'.cfg = s.cfg → s'.requests = b :: rest →
        step s' = .next { s' with requests := rest, responses := s'.responses ++ [c] }

/-- The host takes responses oldest first, and taking one changes nothing a step does with the requests (R205). -/
def Obligations.ResponsesAreTakenInOrder : Prop :=
  ∀ (s s' t : State) (c : ResponseRecord), s.takeResponse = some (c, s') → step s = .next t →
    s.responses = c :: s'.responses ∧ ∃ t', t.takeResponse = some (c, t') ∧ step s' = .next t'

/-- Which responses end a good run (93_implementation_defined.md I2, I3, I7, I12); that the mark is kept by the responses and not
by a stop of the machine is the model's choice, log entry 8. -/
def Obligations.FaultOrRefusalStatusEndsTheGoodRun : Prop :=
  ∀ (i : Instr) (s t : State) (b : ResponseRecord), exec i s = .next t → t.responses = s.responses ++ [b] →
    (t.goodRun = true ↔ s.goodRun = true ∧ b[0] ≠ 0x04 ∧ b[0] ≠ 0x05 ∧ b[0] ≠ 0x06 ∧ b[0] ≠ 0x07)

/-! ## Assembly -/

/-- The reserved bits of an assembled request are 0, so it is never an illegal request (R80, last sentence). -/
def Obligations.AssembledRequestsAreLegal : Prop :=
  ∀ (responses : List ResponseRecord) (line : AsmLine) (b : RequestRecord) (op : Byte),
    assemble responses line = some b → decodeRequest b ≠ .illegal op

/-- R83: each pseudo-operation is exactly one request. -/
def Obligations.PseudoOperationsExpandToOneRequest : Prop :=
  ∀ (responses : List ResponseRecord) (node : Byte),
    (∃ b, assemble responses .syncFrame = some b ∧
      decodeRequest b = .fenc 0x080 0 (Vector.replicate 8 0) false false) ∧
    (∃ b, assemble responses (.nmtStart node) = some b ∧ decodeRequest b = .cosnmt node 0) ∧
    ∃ b, assemble responses (.nmtReset node) = some b ∧ decodeRequest b = .cosnmt node 3

/-- A frame operand `Rk` is `blob[0..16]` of response k, counted from 1 (R80, 95_test_vectors.md section 3), in each of the three
operations that read a frame. That the line assembles whatever other keys it has, and that a response without a frame gives its first
16 blob bytes, are the model's choices, log entry 14 (DESIGN CHOICE). -/
def Obligations.FrameOperandNamesAnEarlierResponse : Prop :=
  ∀ (before : List ResponseRecord) (r : Response) (after : List ResponseRecord) (keys : AsmKeys),
    keys.frame = some (.response (before.length + 1)) → (keys.data.getD []).length ≤ 8 →
    (∃ b, assemble (before ++ r.toBytes :: after) (.op .fdec keys) = some b ∧ decodeRequest b = .fdec r.frame) ∧
    (∃ b, assemble (before ++ r.toBytes :: after) (.op .cocls keys) = some b ∧ decodeRequest b = .cocls r.frame) ∧
    ∃ b, assemble (before ++ r.toBytes :: after) (.op .bcmsetup keys) = some b ∧
      decodeRequest b = .bcmsetup (keys.id.getD 0) (keys.us.getD 0) (keys.set.getD false) (keys.start.getD false) r.frame

/-- Each key of a line sets its own field of the record and no other, but that `data=` sets `len` too unless `len=` is given, and a
field no key sets is 0 (R80). That every mnemonic with every key assembles, given at most 8 data bytes and no missing response, and that
`Rk` may name a response without a frame, are the model's choices, log entry 14 (DESIGN CHOICE). `b[k]` is offset k, as in
RequestDecodesBySelectorAndReservedBits. -/
def Obligations.AssembledFieldsFollowTheKeys : Prop :=
  ∀ (responses : List ResponseRecord) (m : AsmOp) (keys : AsmKeys) (f : Frame),
    (keys.data.getD []).length ≤ 8 →
    ((keys.frame = none ∧ f = Vector.replicate 16 0) ∨ keys.frame = some (.bytes f) ∨
      ∃ (k : Nat) (q : ResponseRecord), keys.frame = some (.response (k + 1)) ∧ responses[k]? = some q ∧
        ∀ i : Fin 16, f[i] = q[24 + i.1]) →
    ∃ b : RequestRecord, assemble responses (.op m keys) = some b ∧
      b[0] = (match m with
        | .fenc => 0x01 | .fdec => 0x02 | .bcmsetup => 0x03 | .cocls => 0x10 | .cospdo => 0x11 | .cosnmt => 0x12
        | .cossdo => 0x13) ∧
      b[1].getLsbD 0 = keys.rtr.getD false ∧ b[1].getLsbD 1 = keys.err.getD false ∧
      b[1].getLsbD 2 = keys.set.getD false ∧ b[1].getLsbD 3 = keys.start.getD false ∧ b[1].extractLsb' 4 4 = 0 ∧
      b[2] = keys.len.getD (BitVec.ofNat 8 (keys.data.getD []).length) ∧
      b[3] = keys.node.getD 0 ∧ b[4] = keys.ch.getD 0 ∧ b[5] = keys.cmd.getD 0 ∧ b[6] = 0 ∧ b[7] = 0 ∧
      b[11] ++ b[10] ++ b[9] ++ b[8] = keys.id.getD 0 ∧
      b[12] = 0 ∧ b[13] = 0 ∧ b[14] = 0 ∧ b[15] = 0 ∧
      b[23] ++ b[22] ++ b[21] ++ b[20] ++ b[19] ++ b[18] ++ b[17] ++ b[16] = keys.us.getD 0 ∧
      (∀ i : Fin 8, b[24 + i.1] = (keys.data.getD []).getD i.1 0) ∧ ∀ i : Fin 16, b[32 + i.1] = f[i]
end

