-- ==== Sys2Proof/Laws/Assembly.lean ====
section
/-!
SUPPORT. When a line assembles, and to which record; proofs cite this and do not unfold the assembler.
-/

namespace Sys2Proof.Machine

/-- A line assembles exactly when its data fits and its frame operand exists, and then to the record of its keys. -/
theorem assemble_eq_some {responses : List ResponseRecord} {line : AsmLine} {b : RequestRecord} :
    assemble responses line = some b ↔
      line.expand.2.bytes.length ≤ 8 ∧ ∃ f, asmFrameBytes responses line.expand.2.frame = some f ∧
        (keysRequest line.expand.1 line.expand.2 f).toBytes = b := by
  unfold assemble assembleFields
  split
  · simp; omega
  · simp only [Option.map_map, Option.map_eq_some_iff, Function.comp_apply, iff_and_self]
    omega

end Sys2Proof.Machine
end

