-- ==== Sys2Proof/Laws/Bytes.lean ====
section
/-!
SUPPORT. Byte strings and byte order: values and their bytes are inverse, and what a slice of a record laid out as a
concatenation of fields is.
-/

namespace Sys2Proof

theorem leValue_lt (bs : List Byte) : leValue bs < 256 ^ bs.length := by
  induction bs with
  | nil => simp [leValue]
  | cons b bs ih =>
    have hb := b.isLt
    simp only [leValue, List.length_cons, Nat.pow_succ]
    omega

theorem leValue_leBytes (n v : Nat) (h : v < 256 ^ n) : leValue (leBytes n v) = v := by
  induction n generalizing v with
  | zero => simp only [Nat.pow_zero] at h; simp only [leBytes, leValue]; omega
  | succ n ih =>
    have hq : v / 256 < 256 ^ n := by
      rw [Nat.pow_succ] at h
      omega
    simp only [leBytes, leValue, ih _ hq, BitVec.toNat_ofNat]
    omega

theorem leBytes_leValue (bs : List Byte) : leBytes bs.length (leValue bs) = bs := by
  induction bs with
  | nil => rfl
  | cons b bs ih =>
    have hb := b.isLt
    have hq : (b.toNat + 256 * leValue bs) / 256 = leValue bs := by omega
    simp only [List.length_cons, leBytes, leValue, hq, ih, List.cons.injEq, and_true]
    apply BitVec.eq_of_toNat_eq
    simp only [BitVec.toNat_ofNat]
    omega

theorem inOrder_inOrder (e : Endian) (bs : List Byte) : inOrder e (inOrder e bs) = bs := by
  cases e <;> simp [inOrder]

/-- `MemRead` of the bytes `MemWrite` wrote gives the value back (R41). -/
theorem leValue_inOrder_memBytes (e : Endian) (n v : Nat) (h : v < 256 ^ n) :
    leValue (inOrder e (memBytes e n v)) = v := by
  rw [memBytes, inOrder_inOrder, leValue_leBytes n v h]

theorem slice_toList {m : Nat} (v : Bytes m) (off n : Nat) (h : off + n ≤ m) :
    (slice v off n h).toList = (v.toList.drop off).take n := rfl

theorem slice_getElem {m : Nat} (v : Bytes m) (off n : Nat) (h : off + n ≤ m) (i : Nat) (hi : i < n) :
    (slice v off n h)[i] = v[off + i] := by
  have hl : off + i < v.toList.length := by simp; omega
  calc (slice v off n h)[i] = (slice v off n h).toList[i]'(by simp [hi]) := by simp
    _ = v.toList[off + i] := by simp [slice_toList]
    _ = v[off + i] := by simp

/-- Two byte strings with the same bytes are equal. -/
theorem bytes_ext {n : Nat} {a b : Bytes n} (h : a.toList = b.toList) : a = b :=
  Vector.toList_inj.mp h

theorem memRead_eq {m : Nat} (e : Endian) (v : Bytes m) (off n : Nat) (h : off + n ≤ m) :
    memRead e v off n h = leValue (inOrder e ((v.toList.drop off).take n)) := rfl

/-- What the middle field of a record is. -/
theorem take_drop_middle {α : Type} (pre mid post : List α) (off n : Nat) (hp : pre.length = off)
    (hm : mid.length = n) : ((pre ++ mid ++ post).drop off).take n = mid := by
  subst hp hm
  simp

/-- A field of a record laid out as a concatenation, read back in the order it was written. -/
theorem memRead_middle {m : Nat} (e : Endian) (v : Bytes m) (off n w : Nat) (h : off + n ≤ m)
    (pre post : List Byte) (hv : v.toList = pre ++ memBytes e n w ++ post) (hp : pre.length = off)
    (hw : w < 256 ^ n) : memRead e v off n h = w := by
  rw [memRead_eq, hv, take_drop_middle _ _ _ _ _ hp (memBytes_length e n w), leValue_inOrder_memBytes e n w hw]

theorem slice_middle {m n : Nat} (v : Bytes m) (off : Nat) (h : off + n ≤ m) (f : Bytes n)
    (pre post : List Byte) (hv : v.toList = pre ++ f.toList ++ post) (hp : pre.length = off) :
    slice v off n h = f := by
  apply bytes_ext
  rw [slice_toList, hv, take_drop_middle _ _ _ _ _ hp (by simp)]

end Sys2Proof
end

