-- ==== Sys2Proof/Laws/Records.lean ====
section
/-!
SUPPORT. The frame, request and response records: reading a field of a record just built gives the field.
-/

namespace Sys2Proof

theorem mkFrame_toList (e : Endian) (raw : Word) (len : Byte) (buf : Payload) :
    (mkFrame e raw len buf).toList = memBytes e 4 raw.toNat ++ [len] ++ [0, 0, 0] ++ buf.toList := rfl

theorem rawId_mkFrame (e : Endian) (raw : Word) (len : Byte) (buf : Payload) :
    rawId e (mkFrame e raw len buf) = raw := by
  have h : memRead e (mkFrame e raw len buf) 0 4 = raw.toNat :=
    memRead_middle e _ 0 4 raw.toNat _ [] ([len] ++ [0, 0, 0] ++ buf.toList) (by simp [mkFrame_toList]) rfl raw.isLt
  rw [rawId, h, BitVec.ofNat_toNat, BitVec.setWidth_eq]

theorem dlen_mkFrame (e : Endian) (raw : Word) (len : Byte) (buf : Payload) :
    dlen (mkFrame e raw len buf) = len := by
  have h : (mkFrame e raw len buf).toList[4]'(by simp) = len := by simp [mkFrame_toList]
  simpa [dlen] using h

theorem fdata_mkFrame (e : Endian) (raw : Word) (len : Byte) (buf : Payload) :
    fdata (mkFrame e raw len buf) = buf :=
  slice_middle _ 8 _ buf (memBytes e 4 raw.toNat ++ [len] ++ [0, 0, 0]) [] (by simp [mkFrame_toList]) (by simp)

/-- The three padding bytes of a record the block writes are 0 (R102). -/
theorem padding_mkFrame (e : Endian) (raw : Word) (len : Byte) (buf : Payload) :
    slice (mkFrame e raw len buf) 5 3 = zeroBytes 3 :=
  slice_middle _ 5 _ (zeroBytes 3) (memBytes e 4 raw.toNat ++ [len]) buf.toList
    (by simp [mkFrame_toList, zeroBytes, List.replicate]) (by simp)

theorem Request.toBytes_toList (q : Request) :
    q.toBytes.toList = [q.op, q.flags, q.len, q.node, q.channel, q.cmd] ++ memBytes .little 2 q.rsv0.toNat
      ++ memBytes .little 4 q.id32.toNat ++ memBytes .little 4 q.rsv1.toNat
      ++ memBytes .little 8 q.intervalUs.toNat ++ q.data.toList ++ q.frame.toList := rfl

theorem Request.ofBytes_toBytes (q : Request) : Request.ofBytes q.toBytes = q := by
  have hl := q.toBytes_toList
  have hb : ∀ i (h : i < 48), q.toBytes[i] = q.toBytes.toList[i]'(by simp [h]) := fun i h => by simp
  have h0 : memRead .little q.toBytes 6 2 = q.rsv0.toNat :=
    memRead_middle .little _ 6 2 q.rsv0.toNat _ [q.op, q.flags, q.len, q.node, q.channel, q.cmd] _
      (by rw [hl]; simp only [List.append_assoc]; rfl) rfl q.rsv0.isLt
  have h1 : memRead .little q.toBytes 8 4 = q.id32.toNat :=
    memRead_middle .little _ 8 4 q.id32.toNat _
      ([q.op, q.flags, q.len, q.node, q.channel, q.cmd] ++ memBytes .little 2 q.rsv0.toNat) _
      (by rw [hl]; simp only [List.append_assoc]; rfl) (by simp) q.id32.isLt
  have h2 : memRead .little q.toBytes 12 4 = q.rsv1.toNat :=
    memRead_middle .little _ 12 4 q.rsv1.toNat _
      ([q.op, q.flags, q.len, q.node, q.channel, q.cmd] ++ memBytes .little 2 q.rsv0.toNat
        ++ memBytes .little 4 q.id32.toNat) _
      (by rw [hl]; simp only [List.append_assoc]; rfl) (by simp) q.rsv1.isLt
  have h3 : memRead .little q.toBytes 16 8 = q.intervalUs.toNat :=
    memRead_middle .little _ 16 8 q.intervalUs.toNat _
      ([q.op, q.flags, q.len, q.node, q.channel, q.cmd] ++ memBytes .little 2 q.rsv0.toNat
        ++ memBytes .little 4 q.id32.toNat ++ memBytes .little 4 q.rsv1.toNat) _
      (by rw [hl]; simp only [List.append_assoc]; rfl) (by simp) q.intervalUs.isLt
  have h4 : slice q.toBytes 24 8 = q.data :=
    slice_middle _ 24 _ q.data
      ([q.op, q.flags, q.len, q.node, q.channel, q.cmd] ++ memBytes .little 2 q.rsv0.toNat
        ++ memBytes .little 4 q.id32.toNat ++ memBytes .little 4 q.rsv1.toNat
        ++ memBytes .little 8 q.intervalUs.toNat) q.frame.toList
      (by rw [hl]) (by simp)
  have h5 : slice q.toBytes 32 16 = q.frame :=
    slice_middle _ 32 _ q.frame
      ([q.op, q.flags, q.len, q.node, q.channel, q.cmd] ++ memBytes .little 2 q.rsv0.toNat
        ++ memBytes .little 4 q.id32.toNat ++ memBytes .little 4 q.rsv1.toNat
        ++ memBytes .little 8 q.intervalUs.toNat ++ q.data.toList) []
      (by rw [hl]; simp only [List.append_nil]) (by simp)
  simp only [Request.ofBytes, h0, h1, h2, h3, h4, h5, hb, hl, BitVec.ofNat_toNat, BitVec.setWidth_eq]
  simp

namespace Machine

theorem Response.toBytes_toList (r : Response) :
    r.toBytes.toList = [r.status, r.kind, r.oflags, r.len, r.channel, r.nmtState, r.node, r.nmtRaw]
      ++ memBytes .little 4 r.value32.toNat ++ memBytes .little 4 r.blobLen.toNat
      ++ r.data.toList ++ r.blob.toList := rfl

theorem Response.ofBytes_toBytes (r : Response) : Response.ofBytes r.toBytes = r := by
  have hl := r.toBytes_toList
  have hb : ∀ i (h : i < 96), r.toBytes[i] = r.toBytes.toList[i]'(by simp [h]) := fun i h => by simp
  have h1 : memRead .little r.toBytes 8 4 = r.value32.toNat :=
    memRead_middle .little _ 8 4 r.value32.toNat _
      [r.status, r.kind, r.oflags, r.len, r.channel, r.nmtState, r.node, r.nmtRaw] _
      (by rw [hl]; simp only [List.append_assoc]; rfl) rfl r.value32.isLt
  have h2 : memRead .little r.toBytes 12 4 = r.blobLen.toNat :=
    memRead_middle .little _ 12 4 r.blobLen.toNat _
      ([r.status, r.kind, r.oflags, r.len, r.channel, r.nmtState, r.node, r.nmtRaw]
        ++ memBytes .little 4 r.value32.toNat) _
      (by rw [hl]; simp only [List.append_assoc]; rfl) (by simp) r.blobLen.isLt
  have h4 : slice r.toBytes 16 8 = r.data :=
    slice_middle _ 16 _ r.data
      ([r.status, r.kind, r.oflags, r.len, r.channel, r.nmtState, r.node, r.nmtRaw]
        ++ memBytes .little 4 r.value32.toNat ++ memBytes .little 4 r.blobLen.toNat) r.blob.toList
      (by rw [hl]) (by simp)
  have h5 : slice r.toBytes 24 72 = r.blob :=
    slice_middle _ 24 _ r.blob
      ([r.status, r.kind, r.oflags, r.len, r.channel, r.nmtState, r.node, r.nmtRaw]
        ++ memBytes .little 4 r.value32.toNat ++ memBytes .little 4 r.blobLen.toNat ++ r.data.toList) []
      (by rw [hl]; simp only [List.append_nil]) (by simp)
  simp only [Response.ofBytes, h1, h2, h4, h5, hb, hl, BitVec.ofNat_toNat, BitVec.setWidth_eq]
  simp

theorem blobOf_getElem (bs : List Byte) (i : Nat) (h : i < 72) : (blobOf bs)[i] = bs.getD i 0 := by
  simp [blobOf]

/-- A FRAME response's blob begins with the frame record. -/
theorem slice_blobOf_frame (f : Frame) : slice (blobOf f.toList) 0 16 = f := by
  apply Vector.ext
  intro i hi
  rw [slice_getElem _ _ _ _ _ hi, blobOf_getElem _ _ (by omega)]
  simp [List.getD_eq_getElem?_getD, hi]

theorem payloadSlice_getElem (len : Byte) (data : Payload) (i : Nat) (h : i < 8) :
    (payloadSlice len data)[i] = if i < len.toNat then data[i] else 0 := by
  simp [payloadSlice]

end Machine

end Sys2Proof
end

