-- ==== Sys2Proof/Laws/State.lean ====
section
/-!
SUPPORT. One lemma per field per update of the state, each true by `rfl`.
-/

namespace Sys2Proof.Machine

variable (s : State) (r : Response) (b : RequestRecord)

@[simp] theorem State.respond_cfg : (s.respond r).cfg = s.cfg := rfl
@[simp] theorem State.respond_requests : (s.respond r).requests = s.requests := rfl
@[simp] theorem State.respond_responses : (s.respond r).responses = s.responses ++ [r.toBytes] := rfl

@[simp] theorem State.presentFirst_cfg : (s.presentFirst b).cfg = s.cfg := rfl
@[simp] theorem State.presentFirst_requests : (s.presentFirst b).requests = b :: s.requests := rfl
@[simp] theorem State.presentFirst_responses : (s.presentFirst b).responses = s.responses := rfl

@[simp] theorem State.present_cfg : (s.present b).cfg = s.cfg := rfl
@[simp] theorem State.present_requests : (s.present b).requests = s.requests ++ [b] := rfl
@[simp] theorem State.present_responses : (s.present b).responses = s.responses := rfl

@[simp] theorem State.applyReset_cfg : s.applyReset.cfg = s.cfg := rfl
@[simp] theorem State.applyReset_requests : s.applyReset.requests = [] := rfl
@[simp] theorem State.applyReset_responses : s.applyReset.responses = [] := rfl

@[simp] theorem State.reset_cfg : State.reset.cfg = {} := rfl
@[simp] theorem State.reset_requests : State.reset.requests = [] := rfl
@[simp] theorem State.reset_responses : State.reset.responses = [] := rfl

end Sys2Proof.Machine
end

