-- ==== Sys2Proof/Laws/Ops.lean ====
section
/-!
SUPPORT. Everything each shared operation can do, said once; proofs cite these and do not unfold the operations.
-/

namespace Sys2Proof.Machine

/-- A failing operation answers one response and nothing else (R180). -/
theorem raise_eq_next {status : Status} {value : Word} {s t : State} (h : raise status value s = .next t) :
    t = s.respond { status := status.code, value32 := value } := by
  cases h; rfl

theorem finish_eq_next {r : Response} {s t : State} (h : finish r s = .next t) :
    t = s.respond { r with status := 0 } := by
  cases h; rfl

theorem finishFrame_eq (f : Frame) (s : State) :
    finishFrame f s = .next (s.respond { kind := 0x02, blobLen := 16, blob := blobOf f.toList }) := rfl

theorem finishEnvelope_eq (bs : List Byte) (s : State) :
    finishEnvelope bs s =
      .next (s.respond { kind := 0x03, blobLen := BitVec.ofNat 32 bs.length, blob := blobOf bs }) := rfl

theorem finishPdo_eq (code : ClassCode) (node : NodeAddr) (len : Byte) (data : Payload) (s : State) :
    finishPdo code node len data s =
      .next (s.respond { kind := 0x11, value32 := functionCode code, channel := pdoChannel code,
                         node := node.setWidth 8, len, data }) := rfl

/-- A request is performed only when one is presented, and it is the oldest (R22). -/
theorem nextRequest_eq_some {s s' : State} {i : Instr} (h : nextRequest s = some (i, s')) :
    ∃ b rest, s.requests = b :: rest ∧ i = decodeRequest b ∧ s' = { s with requests := rest } := by
  unfold nextRequest at h
  split at h
  · cases h
  · next b rest hs => cases h; exact ⟨b, rest, hs, rfl, rfl⟩

theorem nextRequest_eq_none {s : State} : nextRequest s = none ↔ s.requests = [] := by
  unfold nextRequest
  split <;> simp_all

end Sys2Proof.Machine
end

