-- ==== Sys2Proof/Laws/PerInstr.lean ====
section
/-!
SUPPORT. Per-instruction statements about `Instr` as a term. `RecordSize`: an instruction is encoded in a record of the size of
its format, 48 bytes for a request and 16 for a classification row (R40, R82).
-/

namespace Sys2Proof.Laws.RecordSize

/-- The size of the record of an instruction's format. -/
def size : Instr → Nat
  | .fenc _ _ _ _ _ | .fdec _ | .bcmsetup _ _ _ _ _ | .cocls _ | .cospdo _ _ _ _ | .cosnmt _ _ | .cossdo
  | .illegal _ => 48
  | .clsSync _ _ | .clsPdo1 _ _ _ | .clsPdo2 _ _ _ | .clsPdo3 _ _ _ | .clsPdo4 _ _ _ | .clsSdo _
  | .clsNmtState _ _ _ | .clsUnrecognized _ _ => 16

def Statement (i : Instr) : Prop := ∀ e : Endian, (encode e i).length = size i

theorem fenc (id32 : Word) (len : Byte) (data : Payload) (rtr err : Bool) :
    Statement (.fenc id32 len data rtr err) := fun e => by simp [encode, size]

theorem fdec (frame : Frame) : Statement (.fdec frame) := fun e => by simp [encode, size]

theorem bcmsetup (id32 : Word) (intervalUs : DWord) (setTimer startTimer : Bool) (frame : Frame) :
    Statement (.bcmsetup id32 intervalUs setTimer startTimer frame) := fun e => by simp [encode, size]

theorem cocls (frame : Frame) : Statement (.cocls frame) := fun e => by simp [encode, size]

theorem cospdo (node channel len : Byte) (data : Payload) : Statement (.cospdo node channel len data) :=
  fun e => by simp [encode, size]

theorem cosnmt (node cmd : Byte) : Statement (.cosnmt node cmd) := fun e => by simp [encode, size]

theorem cossdo : Statement .cossdo := fun e => by simp [encode, size]

theorem illegal (op : Byte) : Statement (.illegal op) := fun e => by simp [encode, size]

theorem clsSync (node : NodeAddr) (len : Byte) : Statement (.clsSync node len) :=
  fun e => by simp [encode, size]

theorem clsPdo1 (node : NodeAddr) (len : Byte) (data : Payload) : Statement (.clsPdo1 node len data) :=
  fun e => by simp [encode, size]

theorem clsPdo2 (node : NodeAddr) (len : Byte) (data : Payload) : Statement (.clsPdo2 node len data) :=
  fun e => by simp [encode, size]

theorem clsPdo3 (node : NodeAddr) (len : Byte) (data : Payload) : Statement (.clsPdo3 node len data) :=
  fun e => by simp [encode, size]

theorem clsPdo4 (node : NodeAddr) (len : Byte) (data : Payload) : Statement (.clsPdo4 node len data) :=
  fun e => by simp [encode, size]

theorem clsSdo (node : NodeAddr) : Statement (.clsSdo node) := fun e => by simp [encode, size]

theorem clsNmtState (node : NodeAddr) (len state : Byte) : Statement (.clsNmtState node len state) :=
  fun e => by simp [encode, size]

theorem clsUnrecognized (code : ClassCode) (node : NodeAddr) : Statement (.clsUnrecognized code node) :=
  fun e => by simp [encode, size]

end Sys2Proof.Laws.RecordSize
end

