-- ==== Sys2Proof/Tests/Slice0.lean ====
section
/-!
SUPPORT. Checks of the model's own work. Every expected byte stands in 95_test_vectors.md (the vector's name is given) or is
written out from the encoding rule named. `witness_<Name>` gives a state and operands that meet the hypotheses of
`Obligations.<Name>`, one for each of its clauses, at a boundary value.
-/

namespace Sys2Proof.Tests

open Sys2Proof.Machine

/-! ## Helpers -/

/-- An idle block with the parameters `c`. -/
def block (c : Config) : State := { cfg := c, requests := [], responses := [] }

/-- The one response an instruction gives on an idle block. -/
def answer (i : Instr) (c : Config := {}) : Option Response :=
  match exec i (block c) with
  | .next t => t.responses.head?.map Response.ofBytes
  | _ => none

/-- The status and the value of that response. -/
def failure (i : Instr) (c : Config := {}) : Option (Byte × Word) :=
  (answer i c).map fun r => (r.status, r.value32)

/-- The frame record of a FRAME response. -/
def frameOf (i : Instr) (c : Config := {}) : Option Frame :=
  (answer i c).bind fun r => if r.kind = 0x02 ∧ r.blobLen = 16 then some r.frame else none

/-- The response record one step gives for one presented request record. -/
def stepBytes (b : RequestRecord) : Option ResponseRecord :=
  match step (State.reset.present b) with
  | .next t => t.responses.head?
  | _ => none

/-- The bytes of a blob from `off` to `off + n`. -/
def blobBytes (r : Response) (off n : Nat) : List Byte := (r.blob.toList.drop off).take n

/-- `00×n`. -/
def z (n : Nat) : List Byte := List.replicate n 0

def bytes8 (l : List Byte) : Payload := Vector.ofFn fun i => l.getD i.1 0
def frame16 (l : List Byte) : Frame := Vector.ofFn fun i => l.getD i.1 0
def request48 (l : List Byte) : RequestRecord := Vector.ofFn fun i => l.getD i.1 0
def response96 (l : List Byte) : ResponseRecord := Vector.ofFn fun i => l.getD i.1 0

/-- The SYNCFRAME record S of 95_test_vectors.md section 2.3. -/
def recordS : Frame := #v[0x80, 0, 0, 0, 0, 0, 0, 0, 0, 0, 0, 0, 0, 0, 0, 0]

/-- A record with length byte 9. -/
def record9 : Frame := #v[0x80, 0, 0, 0, 9, 0, 0, 0, 0, 0, 0, 0, 0, 0, 0, 0]

/-- A record with length byte 8 and identifier 0x185. -/
def record185 : Frame := #v[0x85, 0x01, 0, 0, 8, 0, 0, 0, 1, 2, 3, 4, 5, 6, 7, 8]

/-! ## WellFormed refuses one ill-formed term per check -/

theorem test_wf_sync : Instr.wellFormed (.clsSync 0 9) = false := by decide
theorem test_wf_pdo1 : Instr.wellFormed (.clsPdo1 0 9 (zeroBytes 8)) = false := by decide
theorem test_wf_pdo2 : Instr.wellFormed (.clsPdo2 0 9 (zeroBytes 8)) = false := by decide
theorem test_wf_pdo3 : Instr.wellFormed (.clsPdo3 0 9 (zeroBytes 8)) = false := by decide
theorem test_wf_pdo4 : Instr.wellFormed (.clsPdo4 0 255 (zeroBytes 8)) = false := by decide
theorem test_wf_nmtState : Instr.wellFormed (.clsNmtState 0 9 5) = false := by decide
theorem test_wf_unrecognized :
    [1, 3, 5, 7, 9, 11, 14].all (fun c => !Instr.wellFormed (.clsUnrecognized c 0)) = true := by decide
theorem test_wf_accepts : Instr.wellFormed (.clsSync 0x7F 8) = true ∧
    Instr.wellFormed (.clsUnrecognized 31 0x7F) = true ∧ Instr.wellFormed (.illegal 0xFF) = true := by decide

/-! ## Every constructor's decoding, from bytes written out -/

/-- P1 request 1 (R60, R62). -/
theorem test_decode_fenc :
    decode .little ([0x01, 0x01, 0x02, 0, 0, 0, 0, 0, 0x23, 0x01] ++ z 14 ++ [0xDE, 0xAD] ++ z 22) =
      .ok (.fenc 0x123 2 #v[0xDE, 0xAD, 0, 0, 0, 0, 0, 0] true false) := rfl

/-- P1 request 2. -/
theorem test_decode_fdec :
    decode .big ([0x02] ++ z 31 ++ [0x23, 0x01, 0, 0x40, 2, 0, 0, 0, 0xDE, 0xAD] ++ z 6) =
      .ok (.fdec #v[0x23, 0x01, 0, 0x40, 2, 0, 0, 0, 0xDE, 0xAD, 0, 0, 0, 0, 0, 0]) := rfl

/-- P2 request 2. -/
theorem test_decode_bcmsetup :
    decode .little ([0x03, 0x0C, 0, 0, 0, 0, 0, 0, 0x80, 0, 0, 0, 0, 0, 0, 0, 0x10, 0x27] ++ z 14 ++ [0x80] ++ z 15) =
      .ok (.bcmsetup 0x80 10000 true true recordS) := rfl

/-- P2 request 3. -/
theorem test_decode_cocls : decode .little ([0x10] ++ z 31 ++ [0x80] ++ z 15) = .ok (.cocls recordS) := rfl

/-- P3 request 2. -/
theorem test_decode_cospdo :
    decode .little ([0x11, 0, 3, 5, 1] ++ z 19 ++ [0x11, 0x22, 0x33] ++ z 21) =
      .ok (.cospdo 5 1 3 #v[0x11, 0x22, 0x33, 0, 0, 0, 0, 0]) := rfl

/-- R60: `node` at 3, `cmd` at 5 (SN4). -/
theorem test_decode_cosnmt : decode .little ([0x12, 0, 0, 0x0A, 0, 3] ++ z 42) = .ok (.cosnmt 0x0A 3) := rfl

/-- P3 request 6. -/
theorem test_decode_cossdo : decode .little ([0x13, 0, 0, 5] ++ z 44) = .ok .cossdo := rfl

/-- RQ2 and RQ8: an unassigned selector, and `rsv1` = 0x80000000. -/
theorem test_decode_illegal :
    decode .little ([0x04] ++ z 47) = .ok (.illegal 0x04) ∧
    decode .little ([0x01, 0, 0, 0, 0, 0, 0, 0, 0x23, 0x01, 0, 0, 0, 0, 0, 0x80] ++ z 32) = .ok (.illegal 0x01) :=
  ⟨rfl, rfl⟩

/-- CC3. -/
theorem test_decode_clsSync : decode .little ([0xFF, 0, 0, 0, 0, 0, 0, 0] ++ z 8) = .ok (.clsSync 0x7F 0) := rfl

/-- CC6, and CC21 with its junk bits above bit 10. -/
theorem test_decode_clsPdo1 :
    decode .little ([0x85, 0x01, 0, 0, 2, 0, 0, 0, 1, 2] ++ z 6) = .ok (.clsPdo1 5 2 #v[1, 2, 0, 0, 0, 0, 0, 0]) ∧
    decode .little [0x85, 0xF1, 0xFF, 0x1F, 2, 0, 0, 0, 1, 2, 3, 4, 5, 6, 7, 8] =
      .ok (.clsPdo1 5 2 #v[1, 2, 3, 4, 5, 6, 7, 8]) := ⟨rfl, rfl⟩

/-- CC7. -/
theorem test_decode_clsPdo2 :
    decode .little [0xFF, 0x02, 0, 0, 8, 0, 0, 0, 9, 9, 9, 9, 9, 9, 9, 9] =
      .ok (.clsPdo2 0x7F 8 #v[9, 9, 9, 9, 9, 9, 9, 9]) := rfl

/-- CC8. -/
theorem test_decode_clsPdo3 :
    decode .little ([0xA0, 0x03] ++ z 14) = .ok (.clsPdo3 0x20 0 (zeroBytes 8)) := rfl

/-- CC9, in a big-endian record (R41). -/
theorem test_decode_clsPdo4 :
    decode .big ([0, 0, 0x04, 0x81] ++ z 12) = .ok (.clsPdo4 1 0 (zeroBytes 8)) := rfl

/-- CC11. -/
theorem test_decode_clsSdo : decode .little ([0xFF, 0x05] ++ z 14) = .ok (.clsSdo 0x7F) := rfl

/-- CC24: byte 0 of the buffer is read although the length is 0. -/
theorem test_decode_clsNmtState :
    decode .little ([0x05, 0x07, 0, 0, 0, 0, 0, 0, 0x05] ++ z 7) = .ok (.clsNmtState 5 0 0x05) := rfl

/-- CC17 (code 15) and CC18 (extended 0x12345, code 6, node 0x45). -/
theorem test_decode_clsUnrecognized :
    decode .little ([0xFF, 0x07] ++ z 14) = .ok (.clsUnrecognized 15 0x7F) ∧
    decode .little ([0x45, 0x23, 0x01, 0x80] ++ z 12) = .ok (.clsUnrecognized 6 0x45) := ⟨rfl, rfl⟩

/-- CC23, and a byte string of neither size. -/
theorem test_decode_refused :
    decode .little record9.toList = .error (.malformedFrame 9) ∧ decode .little (z 47) = .error (.recordSize 47) :=
  ⟨rfl, rfl⟩

/-- The encoder writes the bytes of P1 request 1. -/
theorem test_encode_fenc :
    encode .big (.fenc 0x123 2 #v[0xDE, 0xAD, 0, 0, 0, 0, 0, 0] true false) =
      [0x01, 0x01, 0x02, 0, 0, 0, 0, 0, 0x23, 0x01] ++ z 14 ++ [0xDE, 0xAD] ++ z 22 := by decide

/-! ## The words of the opcode table -/

theorem test_table_requests :
    decodeTableWord 8 0x01 = some (.fenc 0 0 (zeroBytes 8) false false) ∧
    decodeTableWord 8 0x02 = some (.fdec (zeroBytes 16)) ∧
    decodeTableWord 8 0x03 = some (.bcmsetup 0 0 false false (zeroBytes 16)) ∧
    decodeTableWord 8 0x10 = some (.cocls (zeroBytes 16)) ∧
    decodeTableWord 8 0x11 = some (.cospdo 0 0 0 (zeroBytes 8)) ∧
    decodeTableWord 8 0x12 = some (.cosnmt 0 0) ∧ decodeTableWord 8 0x13 = some .cossdo ∧
    decodeTableWord 8 0x00 = some (.illegal 0) := ⟨rfl, rfl, rfl, rfl, rfl, rfl, rfl, rfl⟩

theorem test_table_rows :
    decodeTableWord 32 0x080 = some (.clsSync 0 0) ∧ decodeTableWord 32 0x180 = some (.clsPdo1 0 0 (zeroBytes 8)) ∧
    decodeTableWord 32 0x280 = some (.clsPdo2 0 0 (zeroBytes 8)) ∧
    decodeTableWord 16 0x380 = some (.clsPdo3 0 0 (zeroBytes 8)) ∧
    decodeTableWord 16 0x480 = some (.clsPdo4 0 0 (zeroBytes 8)) ∧ decodeTableWord 16 0x580 = some (.clsSdo 0) ∧
    decodeTableWord 32 0x700 = some (.clsNmtState 0 0 0) ∧ decodeTableWord 32 0x000 = some (.clsUnrecognized 0 0) :=
  ⟨rfl, rfl, rfl, rfl, rfl, rfl, rfl, rfl⟩

/-- The very next step runs the word: COSSDO as a request, 0x705 as a frame (P3 R6; CC26). -/
theorem test_table_step :
    step (State.reset.withFetchWord 8 0x13) = exec .cossdo State.reset ∧
    step (State.reset.withFetchWord 32 0x705) = exec (.clsNmtState 5 0 0) State.reset := ⟨rfl, rfl⟩

/-! ## Requests of the programs, byte for byte -/

/-- P1 R2. -/
theorem test_program_fdec :
    stepBytes (request48 ([0x02] ++ z 31 ++ [0x23, 0x01, 0, 0x40, 2, 0, 0, 0, 0xDE, 0xAD])) =
      some (response96 ([0, 1, 2, 2, 0, 0, 0, 0, 0x23, 0x01, 0, 0, 0, 0, 0, 0, 0xDE, 0xAD])) := by decide

/-- P2 R2. -/
theorem test_program_bcmsetup :
    stepBytes (request48 ([0x03, 0x0C, 0, 0, 0, 0, 0, 0, 0x80, 0, 0, 0, 0, 0, 0, 0, 0x10, 0x27] ++ z 14 ++ [0x80])) =
      some (response96 ([0, 3] ++ z 10 ++ [0x34] ++ z 11 ++ [1, 0, 0, 0, 3] ++ z 19
        ++ [0x10, 0x27, 0, 0, 0x80, 0, 0, 0, 1, 0, 0, 0, 0x80])) := by decide

/-- P4 R2. -/
theorem test_program_illegal :
    stepBytes (request48 ([0x02, 0x10] ++ z 30 ++ [0x80])) =
      some (response96 [0x0A, 0, 0, 0, 0, 0, 0, 0, 0x02]) := by decide

/-! ## Vectors -/

/-- FE5 and FE16. -/
theorem test_fenc_little :
    frameOf (.fenc 0x1FFFFFFF 8 #v[1, 2, 3, 4, 5, 6, 7, 8] false false) =
      some #v[0xFF, 0xFF, 0xFF, 0x9F, 8, 0, 0, 0, 1, 2, 3, 4, 5, 6, 7, 8] ∧
    frameOf (.fenc 0x12345 1 (bytes8 [0xAB, 0xCC]) true true) =
      some (frame16 [0x45, 0x23, 0x01, 0xE0, 1, 0, 0, 0, 0xAB]) := by decide

/-- FE17, FE4 and FE8. -/
theorem test_fenc_big_and_failure :
    frameOf (.fenc 0x123 1 (bytes8 [0x11]) false false) { endian := .big } =
      some (frame16 [0, 0, 0x01, 0x23, 1, 0, 0, 0, 0x11]) ∧
    frameOf (.fenc 0x800 0 (zeroBytes 8) false false) = some (frame16 [0, 0x08, 0, 0x80]) ∧
    failure (.fenc 0xFFFFFFFF 9 (zeroBytes 8) false false) = some (0x01, 9) := by decide

/-- FD5. -/
theorem test_fdec_masks_standard :
    answer (.fdec #v[0xFF, 0xFF, 0xFF, 0x7F, 8, 0x11, 0x22, 0x33, 1, 2, 3, 4, 5, 6, 7, 8]) =
      some { kind := 0x01, value32 := 0x7FF, oflags := 0x06, len := 8, data := #v[1, 2, 3, 4, 5, 6, 7, 8] } := by
  decide

/-- FD7 and FD17. -/
theorem test_fdec_tail_and_big :
    answer (.fdec (frame16 [0x23, 0x81, 0, 0, 3, 0, 0, 0, 0xAA, 0xBB, 0xCC, 0xDD])) =
      some { kind := 0x01, value32 := 0x123, len := 3, data := bytes8 [0xAA, 0xBB, 0xCC] } ∧
    answer (.fdec (frame16 [0x23, 0x01])) { endian := .big } = some { kind := 0x01, oflags := 0x04 } := by decide

/-- BC7 and BC8. -/
theorem test_bcmsetup_interval_limit :
    ((answer (.bcmsetup 0x80 (0x7FFFFFFF * 1000000 + 999999) false false recordS)).map fun r => blobBytes r 20 8) =
      some [0xFF, 0xFF, 0xFF, 0x7F, 0x3F, 0x42, 0x0F, 0] ∧
    failure (.bcmsetup 0x80 0xFFFFFFFFFFFFFFFF false false recordS) = some (0x09, 0xFFFFFFFF) := by decide

/-- BC12 and BC10. -/
theorem test_bcmsetup_parameters :
    ((answer (.bcmsetup 0x80 0xFFFFFFFFFFFFFFFF true true recordS) { bcmLayout := .lp64 }).map fun r =>
        (r.blobLen, blobBytes r 0 56)) =
      some (72, [1, 0, 0, 0, 3, 0, 0, 0] ++ z 24 ++ [0xED, 0xB5, 0xA0, 0xF7, 0xC6, 0x10, 0, 0, 0xBF, 0x6A, 0x08, 0, 0, 0,
        0, 0, 0x80, 0, 0, 0, 1, 0, 0, 0]) ∧
    ((answer (.bcmsetup 0x80 1500000 false false recordS) { bcmIval1 := .sameAsIval2 }).map fun r => blobBytes r 12 16) =
      some [1, 0, 0, 0, 0x20, 0xA1, 0x07, 0, 1, 0, 0, 0, 0x20, 0xA1, 0x07, 0] := by decide

/-- CC21: the whole buffer, standard masking. -/
theorem test_cocls_pdo :
    answer (.cocls #v[0x85, 0xF1, 0xFF, 0x1F, 2, 0, 0, 0, 1, 2, 3, 4, 5, 6, 7, 8]) =
      some { kind := 0x11, value32 := 0x180, channel := 1, node := 5, len := 2, data := #v[1, 2, 3, 4, 5, 6, 7, 8] } := by
  decide

/-- S7 (the record FE12) and CC25. -/
theorem test_cocls_failures :
    failure (.cocls (frame16 [0x99, 0x09, 0, 0x80])) = some (0x03, 0x980) ∧
    failure (.cocls (frame16 [0x05, 0x07])) { nmtEmptyPolicy := .fault } = some (0x0B, 0x700) := by decide

/-- SP4 and SP13. -/
theorem test_cospdo :
    frameOf (.cospdo 0x7F 4 8 #v[1, 2, 3, 4, 5, 6, 7, 8]) =
      some #v[0x7F, 0x05, 0, 0, 8, 0, 0, 0, 1, 2, 3, 4, 5, 6, 7, 8] ∧
    failure (.cospdo 0x80 1 9 (zeroBytes 8)) = some (0x06, 128) := by decide

/-- SP5 and SP11. -/
theorem test_cospdo_channel :
    frameOf (.cospdo 0x10 2 1 (bytes8 [0x11, 0x22])) = some (frame16 [0x10, 0x03, 0, 0, 1, 0, 0, 0, 0x11]) ∧
    failure (.cospdo 0xFF 0 0 (zeroBytes 8)) = some (0x07, 0) := by decide

/-- SN3 and SN10. -/
theorem test_cosnmt :
    frameOf (.cosnmt 0x0A 2) = some (frame16 [0x0A, 0x07, 0, 0, 1, 0, 0, 0, 0x80]) ∧
    failure (.cosnmt 0x80 9) = some (0x08, 9) := by decide

/-- SN1, SN2, SN4, SN5: the payload bytes of the other commands. -/
theorem test_cosnmt_commands :
    ([0, 1, 3, 4].map fun c => (frameOf (.cosnmt 0x0A c)).map fun f => f[8]) =
      [some 0x01, some 0x02, some 0x81, some 0x82] := by decide

/-- SS1. -/
theorem test_cossdo : answer .cossdo = some { status := 0x04, value32 := 0x580 } := by decide

/-- RQ4. -/
theorem test_illegal : answer (.illegal 0xFF) = some { status := 0x0A, value32 := 0xFF } := by decide

/-- CC2, CC7, CC8 and CC9 as rows. -/
theorem test_message_rows :
    answer (.clsSync 1 0) = some { kind := 0x10, value32 := 0x080, node := 1 } ∧
    (answer (.clsPdo2 0x7F 8 (zeroBytes 8))).map (fun r => (r.value32, r.channel, r.node)) = some (0x280, 2, 0x7F) ∧
    (answer (.clsPdo3 0x20 0 (zeroBytes 8))).map (fun r => (r.value32, r.channel, r.node)) = some (0x380, 3, 0x20) ∧
    (answer (.clsPdo4 1 0 (zeroBytes 8))).map (fun r => (r.value32, r.channel, r.node)) = some (0x480, 4, 1) := by
  decide

/-- The NMT state byte sweep of section 2.4. -/
theorem test_nmt_state_sweep :
    ([0x00, 0x04, 0x05, 0x7F, 0x7E, 0x80, 0xFF, 0x01].map fun b =>
      (answer (.clsNmtState 5 1 b)).map fun r => (r.nmtState, r.nmtRaw)) =
    [some (0, 0x00), some (1, 0x04), some (2, 0x05), some (3, 0x7F), some (0, 0x7E), some (0, 0x80), some (0, 0xFF),
      some (0, 0x01)] := by decide

/-- CC10 and CC16. -/
theorem test_rejecting_rows :
    failure (.clsSdo 0) = some (0x04, 0x580) ∧ failure (.clsUnrecognized 15 0) = some (0x03, 0x780) := by decide

/-! ## Assembly (R80, R83) -/

/-- The first line of P1 assembles to its request 1. -/
theorem test_assemble_fenc :
    assembleText [] "FENC id=0x123, data=[0xDE,0xAD], rtr=1   ; R1: frame 0x123, RTR".toList =
      some (request48 ([0x01, 0x01, 0x02, 0, 0, 0, 0, 0, 0x23, 0x01] ++ z 14 ++ [0xDE, 0xAD])) := by decide

/-- P2 line 2, given the sync record as R1. -/
theorem test_assemble_frame_operand :
    assembleText [response96 ([0, 2] ++ z 10 ++ [0x10] ++ z 11 ++ [0x80])]
        "BCMSETUP id=0x080, us=10000, set=1, start=1, frame=R1".toList =
      some (request48 ([0x03, 0x0C, 0, 0, 0, 0, 0, 0, 0x80, 0, 0, 0, 0, 0, 0, 0, 0x10, 0x27] ++ z 14 ++ [0x80])) := by
  decide

/-- P2 line 1 and P3 line 3. -/
theorem test_assemble_pseudo :
    assembleText [] "SYNCFRAME".toList = some (request48 [0x01, 0, 0, 0, 0, 0, 0, 0, 0x80]) ∧
    assembleText [] "NMTSTART node=5".toList = some (request48 [0x12, 0, 0, 5]) := by decide

/-- R80: keys in another order, a length beside shorter data, and a comment. -/
theorem test_assemble_keys_any_order :
    assembleText [] "COSPDO len=9, data=[1, 0x02], ch=4, node=5 ; twelve".toList =
      some (request48 ([0x11, 0, 9, 5, 4] ++ z 19 ++ [1, 2])) := by decide

/-- The instruction sizes of the per-instruction family. -/
theorem test_record_sizes :
    Laws.RecordSize.size .cossdo = 48 ∧ Laws.RecordSize.size (.clsSdo 0) = 16 := by decide

/-! ## Witnesses of the statements' hypotheses -/

theorem witness_DecodeEncodeRoundTrip :
    Instr.wellFormed (.fenc 0xFFFFFFFF 255 (zeroBytes 8) true true) = true ∧
    Instr.wellFormed (.clsNmtState 0x7F 8 0xFF) = true ∧ Instr.wellFormed (.clsUnrecognized 31 0x7F) = true := by decide

/-- The bytes RequestDecodesBySelectorAndReservedBits calls reserved. -/
def reservedBytes (b : RequestRecord) : Prop :=
  b[1].extractLsb' 4 4 ≠ 0 ∨ b[6] ≠ 0 ∨ b[7] ≠ 0 ∨ b[12] ≠ 0 ∨ b[13] ≠ 0 ∨ b[14] ≠ 0 ∨ b[15] ≠ 0

/-- The first clause: a selector next to an assigned one, and the lowest and highest reserved bits under an assigned one. -/
theorem witness_RequestDecodesBySelectorAndReservedBits_illegal :
    (request48 [0x14])[0] ∉ [(0x01 : Byte), 0x02, 0x03, 0x10, 0x11, 0x12, 0x13] ∧
    reservedBytes (request48 [0x13, 0x10]) ∧ reservedBytes (request48 ([0x01] ++ z 14 ++ [0x80])) := by
  refine ⟨by decide, ?_, ?_⟩ <;> (unfold reservedBytes; decide)

/-- The seven other clauses: each selector with every assigned flag set and no reserved bit. -/
theorem witness_RequestDecodesBySelectorAndReservedBits_assigned :
    ∀ op ∈ [(0x01 : Byte), 0x02, 0x03, 0x10, 0x11, 0x12, 0x13],
      ¬ reservedBytes (request48 [op, 0x0F]) ∧ (request48 [op, 0x0F])[0] = op := by
  unfold reservedBytes; decide

theorem witness_MultiByteFieldsFollowEndian :
    (0xDEADBEEF : Nat) < 2 ^ (8 * 4) ∧ 12 + 4 ≤ 16 ∧
    ∀ i : Fin 4, some (frame16 (z 12 ++ [0xDE, 0xAD, 0xBE, 0xEF]))[12 + i.1] =
      (memBytes .big 4 0xDEADBEEF)[i.1]? := by decide

theorem witness_FencBuildsTheFrame : (8 : Byte).toNat ≤ 8 ∧ (0x1FFFFFFF : Word).toNat ≤ 0x1FFFFFFF := by decide

/-- Both clauses, the second at the smallest rejected identifier. -/
theorem witness_FencRejectsLengthThenIdentifier :
    8 < (9 : Byte).toNat ∧ (8 : Byte).toNat ≤ 8 ∧ 0x1FFFFFFF < (0x20000000 : Word).toNat := by decide

theorem witness_FdecInvertsFenc :
    (8 : Byte).toNat ≤ 8 ∧ (0x800 : Word).toNat ≤ 0x1FFFFFFF ∧
    (block { endian := .big, bcmLayout := .lp64 }).cfg.endian = (block { endian := .big }).cfg.endian := by decide

theorem witness_FencRecordDeterminesItsOperands :
    (0 : Byte).toNat ≤ 8 ∧ (8 : Byte).toNat ≤ 8 ∧ (0x7FF : Word).toNat ≤ 0x1FFFFFFF ∧
    (0x1FFFFFFF : Word).toNat ≤ 0x1FFFFFFF := by decide

theorem witness_FdecReadsTheFields : (dlen record185).toNat ≤ 8 ∧ (dlen recordS).toNat ≤ 8 := by decide

theorem witness_MalformedFrameRejectedFirst : 8 < (dlen record9).toNat := by decide

/-- Two records that differ in the padding and past the length. -/
theorem witness_FdecIgnoresPaddingAndTail :
    let f := frame16 [0x23, 0x01, 0, 0, 1, 0, 0, 0, 0xAA]
    let g := frame16 [0x23, 0x01, 0, 0, 1, 0xFF, 0xFF, 0xFF, 0xAA, 0xBB]
    f ≠ g ∧ (∀ i : Fin 5, f[i.1] = g[i.1]) ∧ ∀ i : Fin 8, i.1 < (dlen f).toNat → f[8 + i.1] = g[8 + i.1] := by decide

/-- The largest accepted interval (BC7). -/
theorem witness_BcmsetupWritesDocPackedEnvelope :
    (block {}).cfg.bcmLayout = .docPacked ∧ (dlen record185).toNat ≤ 8 ∧
    (0x7FFFFFFF * 1000000 + 999999 : DWord).toNat / 1000000 ≤ 0x7FFFFFFF := by decide

theorem witness_BcmsetupWritesLp64Envelope :
    (block { bcmLayout := .lp64 }).cfg.bcmLayout = .lp64 ∧ (dlen record185).toNat ≤ 8 := by decide

/-- The first rejected interval (BC6); the largest accepted one; the largest interval under LP64 (BC12). -/
theorem witness_OnlyDocPackedLimitsTheInterval :
    (dlen recordS).toNat ≤ 8 ∧
    ((block {}).cfg.bcmLayout = .docPacked ∧ 0x7FFFFFFF < (0x80000000 * 1000000 : DWord).toNat / 1000000) ∧
    ((block {}).cfg.bcmLayout = .lp64 ∨ (0x7FFFFFFF * 1000000 + 999999 : DWord).toNat / 1000000 ≤ 0x7FFFFFFF) ∧
    ((block { bcmLayout := .lp64 }).cfg.bcmLayout = .lp64 ∨
      (0xFFFFFFFFFFFFFFFF : DWord).toNat / 1000000 ≤ 0x7FFFFFFF) := by decide

theorem witness_CoclsRunsTheRowOfTheFrame :
    decodeFrame (block {}).cfg.endian record185 = .ok (.clsPdo1 5 8 #v[1, 2, 3, 4, 5, 6, 7, 8]) := rfl

/-- The identifier of a frame on an idle block with the default parameters. -/
def idOf (f : Frame) : Word := numericId (rawId (block {}).cfg.endian f)

/-- Both ends of the sync range. -/
theorem witness_CoclsAnswersSync :
    ((dlen (frame16 [0x80])).toNat ≤ 8 ∧ idOf (frame16 [0x80]) &&& 0xF80 = 0x080 ∧
      0x080 ≤ (idOf (frame16 [0x80])).toNat ∧ (idOf (frame16 [0x80])).toNat ≤ 0x0FF) ∧
    ((dlen (frame16 [0xFF, 0, 0, 0, 8])).toNat ≤ 8 ∧ idOf (frame16 [0xFF, 0, 0, 0, 8]) &&& 0xF80 = 0x080 ∧
      0x080 ≤ (idOf (frame16 [0xFF, 0, 0, 0, 8])).toNat ∧ (idOf (frame16 [0xFF, 0, 0, 0, 8])).toNat ≤ 0x0FF) := by
  decide

/-- Channels 1 to 4 at the largest node and length. -/
theorem witness_CoclsAnswersProcessData :
    ((dlen (frame16 [0xFF, 1, 0, 0, 8])).toNat ≤ 8 ∧ 1 ≤ (1 : Byte).toNat ∧ (4 : Byte).toNat ≤ 4) ∧
    (idOf (frame16 [0xFF, 1, 0, 0, 8]) &&& 0xF80).toNat = 0x080 + (1 : Byte).toNat * 0x100 ∧
    (idOf (frame16 [0xFF, 2, 0, 0, 8]) &&& 0xF80).toNat = 0x080 + (2 : Byte).toNat * 0x100 ∧
    (idOf (frame16 [0xFF, 3, 0, 0, 8]) &&& 0xF80).toNat = 0x080 + (3 : Byte).toNat * 0x100 ∧
    (idOf (frame16 [0xFF, 4, 0, 0, 8]) &&& 0xF80).toNat = 0x080 + (4 : Byte).toNat * 0x100 := by decide

/-- A frame of length 8; one of length 0 under each policy. -/
theorem witness_CoclsAnswersNmtState :
    ((dlen (frame16 [0x7F, 7, 0, 0, 8, 0, 0, 0, 5])).toNat ≤ 8 ∧
      idOf (frame16 [0x7F, 7, 0, 0, 8, 0, 0, 0, 5]) &&& 0xF80 = 0x700 ∧
      dlen (frame16 [0x7F, 7, 0, 0, 8, 0, 0, 0, 5]) ≠ 0) ∧
    ((dlen (frame16 [0x00, 7])).toNat ≤ 8 ∧ idOf (frame16 [0x00, 7]) &&& 0xF80 = 0x700 ∧ dlen (frame16 [0x00, 7]) = 0) ∧
    (block {}).cfg.nmtEmptyPolicy = .readBuffer ∧ (block { nmtEmptyPolicy := .fault }).cfg.nmtEmptyPolicy = .fault := by
  decide

/-- SDO; the lowest and highest codes without a row, among standard and among extended frames. -/
theorem witness_CoclsRejectsSdoAndUnrecognized :
    ((dlen (frame16 [0xFF, 5])).toNat ≤ 8 ∧ idOf (frame16 [0xFF, 5]) &&& 0xF80 = 0x580) ∧
    ((dlen (frame16 [0x00])).toNat ≤ 8 ∧
      idOf (frame16 [0x00]) &&& 0xF80 ∉ [(0x080 : Word), 0x180, 0x280, 0x380, 0x480, 0x580, 0x700]) ∧
    ((dlen (frame16 [0xFF, 0xFF, 0xFF, 0x9F, 8])).toNat ≤ 8 ∧
      idOf (frame16 [0xFF, 0xFF, 0xFF, 0x9F, 8]) &&& 0xF80 ∉
        [(0x080 : Word), 0x180, 0x280, 0x380, 0x480, 0x580, 0x700]) := by
  refine ⟨by decide, by decide, by decide⟩

/-- A plain frame and one with EFF, RTR and ERR set and a bit above bit 11. -/
theorem witness_CoclsFiltersNoFlag :
    let f := frame16 [0x85, 0x01, 0, 0, 1, 0, 0, 0, 7]
    let g := frame16 [0x85, 0x11, 0, 0xE0, 1, 0, 0, 0, 7]
    f ≠ g ∧ dlen f = dlen g ∧ fdata f = fdata g ∧
    numericId (rawId (block {}).cfg.endian f) &&& 0xFFF = numericId (rawId (block {}).cfg.endian g) &&& 0xFFF := by
  decide

/-- A PDO on channel 4 from node 0x7F; for the second clause the frames of `witness_CoclsFiltersNoFlag`. -/
theorem witness_ClassifiedPdoRebuildsItsIdentifier :
    exec (.cocls (frame16 [0xFF, 4])) (block {}) =
      .next { block {} with responses := (block {}).responses ++
        [Response.toBytes { kind := 0x11, value32 := 0x480, channel := 4, node := 0x7F }] } ∧
    (numericId (rawId (block {}).cfg.endian (frame16 [0xFF, 4]))).toNat < 0x1000 := ⟨rfl, by decide⟩

theorem witness_CospdoBuildsThePdoFrame :
    (0x7F : Byte).toNat ≤ 0x7F ∧ (∀ k ∈ [(1 : Byte), 2, 3, 4], 1 ≤ k.toNat ∧ k.toNat ≤ 4) ∧ (8 : Byte).toNat ≤ 8 := by
  decide

/-- The four rows at the largest node. -/
theorem witness_CospdoIsFencOfBaseOrNode :
    (0x7F : Byte).toNat ≤ 0x7F ∧ ∃ rows : List (Byte × Word), rows = [(1, 0x200), (2, 0x300), (3, 0x400), (4, 0x500)] ∧
    ∀ p ∈ rows,
      (p.1 = 1 ∧ p.2 = 0x200) ∨ (p.1 = 2 ∧ p.2 = 0x300) ∨ (p.1 = 3 ∧ p.2 = 0x400) ∨ (p.1 = 4 ∧ p.2 = 0x500) :=
  ⟨by decide, _, rfl, by simp⟩

/-- The channels next to the range, the node and the length next to theirs. -/
theorem witness_CospdoRejectsChannelNodeLength :
    (∀ k ∈ [(0 : Byte), 5], k.toNat < 1 ∨ 4 < k.toNat) ∧
    (1 ≤ (4 : Byte).toNat ∧ (4 : Byte).toNat ≤ 4 ∧ 0x7F < (0x80 : Byte).toNat) ∧
    (1 ≤ (1 : Byte).toNat ∧ (1 : Byte).toNat ≤ 4 ∧ (0x7F : Byte).toNat ≤ 0x7F ∧ 8 < (9 : Byte).toNat) := by decide

/-- The five rows of R79 at the largest node. -/
theorem witness_CosnmtBuildsTheCommandFrame :
    (0x7F : Byte).toNat ≤ 0x7F ∧
    ∃ rows : List (Byte × Byte), rows = [(0, 0x01), (1, 0x02), (2, 0x80), (3, 0x81), (4, 0x82)] ∧
    ∀ p ∈ rows,
      (p.1 = 0 ∧ p.2 = 0x01) ∨ (p.1 = 1 ∧ p.2 = 0x02) ∨ (p.1 = 2 ∧ p.2 = 0x80) ∨ (p.1 = 3 ∧ p.2 = 0x81) ∨
      (p.1 = 4 ∧ p.2 = 0x82) :=
  ⟨by decide, _, rfl, by simp⟩

theorem witness_CosnmtRejectsCommandThenNode :
    4 < (5 : Byte).toNat ∧ (4 : Byte).toNat ≤ 4 ∧ 0x7F < (0x80 : Byte).toNat := by decide

theorem witness_SerializedFramesAreStandard :
    exec (.cosnmt 0x7F 4) (block {}) =
      .next { block {} with responses := (block {}).responses ++
        [Response.toBytes { kind := 0x02, blobLen := 16,
                            blob := blobOf [0x7F, 7, 0, 0, 1, 0, 0, 0, 0x82] }] } ∧
    exec (.cospdo 0x7F 4 0 (zeroBytes 8)) (block {}) =
      .next { block {} with responses := (block {}).responses ++
        [Response.toBytes { kind := 0x02, blobLen := 16, blob := blobOf [0x7F, 5] }] } := ⟨rfl, rfl⟩

theorem witness_ClassifyOfSerializedPdoIsUnrecognized :
    (0x7F : Byte).toNat ≤ 0x7F ∧ (∀ k ∈ [(1 : Byte), 4], 1 ≤ k.toNat ∧ k.toNat ≤ 4) ∧ (8 : Byte).toNat ≤ 8 ∧
    (block { nmtEmptyPolicy := .fault }).cfg.endian = (block {}).cfg.endian := by decide

theorem witness_ClassifyOfSerializedCommandIsInitializing :
    (0x7F : Byte).toNat ≤ 0x7F ∧ (block { bcmLayout := .lp64 }).cfg.endian = (block {}).cfg.endian ∧
    ((4 : Byte) = 4 ∧ (0x82 : Byte) = 0x82) := by decide

/-- A COSSDO request without and one with a reserved bit. -/
theorem witness_CossdoAlwaysUnimplemented :
    (((block {}).present (request48 [0x13])).requests = request48 [0x13] :: [] ∧ (request48 [0x13])[0] = 0x13) ∧
    (((block {}).present (request48 [0x13, 0x80])).requests = request48 [0x13, 0x80] :: [] ∧
      (request48 [0x13, 0x80])[0] = 0x13) := ⟨⟨rfl, by decide⟩, rfl, by decide⟩

/-- Length 0 under each policy, and length 8. -/
theorem witness_NmtStateRowAnswers :
    ((8 : Byte) ≠ 0 ∨ (block { nmtEmptyPolicy := .fault }).cfg.nmtEmptyPolicy = .readBuffer) ∧
    ((0 : Byte) ≠ 0 ∨ (block {}).cfg.nmtEmptyPolicy = .readBuffer) ∧
    ((0 : Byte) = 0 ∧ (block { nmtEmptyPolicy := .fault }).cfg.nmtEmptyPolicy = .fault) := by decide

theorem witness_StepRunsTheDecodedRequest :
    (((block {}).present (request48 [0x13])).present (request48 [0x02])).requests =
      request48 [0x13] :: [request48 [0x02]] ∧ (block {}).requests = [] := by decide

theorem witness_TableWordRunsAsTheNextInstruction :
    decodeTableWord 8 0x03 = some (.bcmsetup 0 0 false false (zeroBytes 16)) ∧
    decodeTableWord 32 0x1FFFFFFF = some (.clsUnrecognized 31 0x7F) := ⟨rfl, rfl⟩

theorem witness_ResponseDependsOnRequestAndParametersOnly :
    let s := (block {}).present (request48 [0x13])
    let s' := { (block {}).present (request48 [0x13]) with responses := [response96 [0x0B]] }
    s ≠ s' ∧ s.cfg = s'.cfg ∧ s.requests = request48 [0x13] :: [] ∧ s'.requests = request48 [0x13] :: [] := by decide

theorem witness_LaterRequestsDoNotChangeEarlierAnswers :
    ((block {}).present (request48 [0x13])).requests ≠ [] ∧
    step ((block {}).present (request48 [0x13])) =
      .next ((block {}).respond { status := 0x04, value32 := 0x580 }) := ⟨by decide, rfl⟩

theorem witness_FailureHoldsStatusAndValueOnly :
    exec (.illegal 0xFF) (block {}) =
      .next { block {} with responses :=
        (block {}).responses ++ [Response.toBytes { status := 0x0A, value32 := 0xFF }] } ∧
    (Response.toBytes { status := 0x0A, value32 := 0xFF })[0] ≠ 0 := ⟨rfl, by decide⟩

/-- A state whose waiting response is a failure satisfies the invariant, and a step on it answers another. -/
theorem witness_StepKeepsResponsesLegal :
    State.Inv (((block {}).present (request48 [0x13])).respond { status := 0x0A }) ∧
    step (((block {}).present (request48 [0x13])).respond { status := 0x0A }) =
      .next (((block {}).respond { status := 0x0A }).respond { status := 0x04, value32 := 0x580 }) := by
  refine ⟨?_, rfl⟩
  intro b hb
  have hb' : b = Response.toBytes { status := 0x0A } := by simpa [block] using hb
  subst hb'
  exact Or.inl ⟨⟨by decide, by decide⟩, by decide⟩

theorem witness_ResetDiscardsRequestsAndKeepsParameters :
    ({ block {} with requests := [request48 [0x13]] } : State).cfg = (block {}).cfg ∧
    ({ block {} with requests := [request48 [0x13]] } : State).requests = request48 [0x13] :: [] := by decide

theorem witness_ResponsesAreTakenInOrder :
    let r : Response := { status := 0x0A }
    (((block {}).present (request48 [0x13])).respond r).takeResponse =
      some (r.toBytes, (block {}).present (request48 [0x13])) ∧
    step (((block {}).present (request48 [0x13])).respond r) =
      .next (((block {}).respond r).respond { status := 0x04, value32 := 0x580 }) := ⟨by decide, rfl⟩

theorem witness_FaultOrRefusalStatusEndsTheGoodRun :
    exec .cossdo (block {}) = .next ((block {}).respond { status := 0x04, value32 := 0x580 }) ∧
    ((block {}).respond { status := 0x04, value32 := 0x580 }).responses =
      (block {}).responses ++ [Response.toBytes { status := 0x04, value32 := 0x580 }] := ⟨rfl, by decide⟩

theorem witness_AssembledRequestsAreLegal :
    assemble [] (.op .fenc { id := some 0x80, rtr := some true, err := some true, set := some true, start := some true }) =
      some (request48 [0x01, 0x0F, 0, 0, 0, 0, 0, 0, 0x80]) := by decide

/-- The second of two responses, beside a full payload. -/
theorem witness_FrameOperandNamesAnEarlierResponse :
    let keys : AsmKeys := { frame := some (.response 2), data := some [1, 2, 3, 4, 5, 6, 7, 8], set := some true }
    keys.frame = some (.response ([response96 [0x0A]].length + 1)) ∧ (keys.data.getD []).length ≤ 8 := by decide

/-- No frame key, the bytes of a frame, and the first response, each beside a full payload. -/
theorem witness_AssembledFieldsFollowTheKeys :
    let data : Option (List Byte) := some [1, 2, 3, 4, 5, 6, 7, 8]
    let q : ResponseRecord := response96 ([0, 2] ++ z 22 ++ [0x80])
    (data.getD []).length ≤ 8 ∧
    (({ data } : AsmKeys).frame = none ∧ zeroBytes 16 = Vector.replicate 16 0) ∧
    ({ data, frame := some (.bytes recordS) } : AsmKeys).frame = some (.bytes recordS) ∧
    (({ data, frame := some (.response (0 + 1)) } : AsmKeys).frame = some (.response (0 + 1)) ∧ [q][0]? = some q ∧
      ∀ i : Fin 16, recordS[i] = q[24 + i.1]) := ⟨by decide, ⟨rfl, rfl⟩, rfl, rfl, rfl, by decide⟩

end Sys2Proof.Tests
end

section
/-!
PROOFS. The statements of 10_state.md: what a valid frame record decodes to, what a step does with the oldest request, and
that an answer is a function of the request and the parameters.
-/

namespace Sys2Proof

/-! ## The classification table on valid and on invalid frames (R27, R76, R140) -/

theorem validLen_iff {len : Byte} : validLen len = true ↔ len.toNat ≤ 8 := by simp [validLen]

theorem decodeFrame_of_valid (e : Endian) {f : Frame} (h : (dlen f).toNat ≤ 8) :
    decodeFrame e f =
      .ok (classRow (classCode (numericId (rawId e f))) (nodeOf (numericId (rawId e f))) (dlen f) (fdata f)) :=
  if_pos (validLen_iff.mpr h)

theorem decodeFrame_of_malformed (e : Endian) {f : Frame} (h : 8 < (dlen f).toNat) :
    decodeFrame e f = .error (.malformedFrame (dlen f)) :=
  if_neg fun hv => absurd (validLen_iff.mp hv) (by omega)

/-- What holds of each of the eight rows holds of the row a function code selects; only a code that is not listed selects
CLS_UNRECOGNIZED (R76, R147). -/
theorem classRow_cases {motive : Instr → Prop} (code : ClassCode) (node : NodeAddr) (len : Byte) (buf : Payload)
    (sync : motive (.clsSync node len)) (pdo1 : motive (.clsPdo1 node len buf)) (pdo2 : motive (.clsPdo2 node len buf))
    (pdo3 : motive (.clsPdo3 node len buf)) (pdo4 : motive (.clsPdo4 node len buf)) (sdo : motive (.clsSdo node))
    (nmtState : motive (.clsNmtState node len buf[0]))
    (unrecognized : code ∉ recognizedCodes → motive (.clsUnrecognized code node)) :
    motive (classRow code node len buf) := by
  unfold classRow
  split_ifs
  · exact sync
  · exact pdo1
  · exact pdo2
  · exact pdo3
  · exact pdo4
  · exact sdo
  · exact nmtState
  · next h1 h3 h5 h7 h9 h11 h14 =>
    have hcode : code ∉ recognizedCodes := by
      simp only [recognizedCodes, List.mem_cons, List.not_mem_nil, or_false, not_or]
      exact ⟨h1, h3, h5, h7, h9, h11, h14⟩
    exact unrecognized hcode

theorem classRow_wellFormed (code : ClassCode) (node : NodeAddr) {len : Byte} (buf : Payload) (h : len.toNat ≤ 8) :
    (classRow code node len buf).wellFormed = true := by
  have hlen : validLen len = true := validLen_iff.mpr h
  refine classRow_cases (motive := fun i => i.wellFormed = true) code node len buf
    hlen hlen hlen hlen hlen rfl hlen fun hcode => ?_
  simpa [Instr.wellFormed] using hcode

namespace Machine

/-! ## A step (R22, R68, R200) -/

theorem step_of_requests_cons {s : State} {b : RequestRecord} {rest : List RequestRecord} (h : s.requests = b :: rest) :
    step s = exec (decodeRequest b) { s with requests := rest } := by
  simp only [step, nextRequest, h]

theorem step_of_requests_nil {s : State} (h : s.requests = []) : step s = .next s := by
  simp only [step, nextRequest_eq_none.mpr h]

theorem State.inv_of_responses_nil {s : State} (h : s.responses = []) : s.Inv := by simp [State.Inv, h]

/-! ## An invalid frame operand (R114, R125, R140) -/

theorem exec_fdec_of_malformed {f : Frame} (s : State) (h : 8 < (dlen f).toNat) :
    exec (.fdec f) s = raise .malformedFrame ((dlen f).setWidth 32) s := if_pos h

theorem exec_cocls_of_malformed {f : Frame} (s : State) (h : 8 < (dlen f).toNat) :
    exec (.cocls f) s = raise .malformedFrame ((dlen f).setWidth 32) s := if_pos h

theorem exec_bcmsetup_of_malformed (id32 : Word) (us : DWord) (setTimer startTimer : Bool) {f : Frame} (s : State)
    (h : 8 < (dlen f).toNat) :
    exec (.bcmsetup id32 us setTimer startTimer f) s = raise .malformedFrame ((dlen f).setWidth 32) s := if_pos h

/-- COCLS on a valid frame is the row its identifier selects (R140). -/
theorem exec_cocls_of_valid {f : Frame} (s : State) (h : (dlen f).toNat ≤ 8) :
    exec (.cocls f) s =
      exec (classRow (classCode (numericId (rawId s.cfg.endian f))) (nodeOf (numericId (rawId s.cfg.endian f)))
        (dlen f) (fdata f)) s := by
  have hvalid : ¬ (dlen f).toNat > 8 := by omega
  simp only [exec, execCocls, if_neg hvalid, classRow]
  split_ifs <;> rfl

/-! ## An answer depends on the parameters only (R20, R47) -/

/-- On every state with the parameters `c`, `m` adds one and the same response and does nothing else. -/
def AnswersBy (c : Config) (m : State → Result) : Prop :=
  ∃ r : Response, ∀ s : State, s.cfg = c → m s = .next (s.respond r)

theorem AnswersBy.congr {c : Config} {m n : State → Result} (hmn : ∀ s, s.cfg = c → m s = n s) (hn : AnswersBy c n) :
    AnswersBy c m := by
  obtain ⟨r, hr⟩ := hn
  exact ⟨r, fun s hs => (hmn s hs).trans (hr s hs)⟩

theorem raise_answersBy (c : Config) (status : Status) (value : Word) : AnswersBy c (raise status value) :=
  ⟨_, fun _ _ => rfl⟩

/-- A response that is the same on all those states. -/
theorem finish_answersBy {c : Config} {f : State → Response} {r : Response} (h : ∀ s, s.cfg = c → f s = r) :
    AnswersBy c fun s => finish (f s) s :=
  ⟨{ r with status := Status.code .ok }, fun s hs => by simp only [h s hs]; rfl⟩

/-- A check that comes out the same on all those states. -/
theorem AnswersBy.ite_of_iff {c : Config} {P : State → Prop} [DecidablePred P] {Q : Prop} {m n : State → Result}
    (hPQ : ∀ s, s.cfg = c → (P s ↔ Q)) (hm : AnswersBy c m) (hn : AnswersBy c n) :
    AnswersBy c fun s => if P s then m s else n s := by
  by_cases hQ : Q
  · obtain ⟨r, hr⟩ := hm
    exact ⟨r, fun s hs => (if_pos ((hPQ s hs).mpr hQ)).trans (hr s hs)⟩
  · obtain ⟨r, hr⟩ := hn
    exact ⟨r, fun s hs => (if_neg (mt (hPQ s hs).mp hQ)).trans (hr s hs)⟩

/-- A check that does not look at the state. -/
theorem AnswersBy.ite {c : Config} {P : Prop} [Decidable P] {m n : State → Result} (hm : AnswersBy c m)
    (hn : AnswersBy c n) : AnswersBy c fun s => if P then m s else n s :=
  .ite_of_iff (fun _ _ => Iff.rfl) hm hn

section
variable (c : Config)

theorem execFenc_answersBy (id32 : Word) (len : Byte) (data : Payload) (rtr err : Bool) :
    AnswersBy c (execFenc id32 len data rtr err) :=
  .ite (raise_answersBy ..) (.ite (raise_answersBy ..) (finish_answersBy fun s hs => by rw [hs]))

theorem execFdec_answersBy (f : Frame) : AnswersBy c (execFdec f) :=
  .ite (raise_answersBy ..) (finish_answersBy fun s hs => by rw [hs])

/-- The layout is a parameter, so it decides between the two envelopes before the state is seen. -/
theorem execBcmsetup_answersBy (id32 : Word) (us : DWord) (setTimer startTimer : Bool) (f : Frame) :
    AnswersBy c (execBcmsetup id32 us setTimer startTimer f) := by
  refine .ite (raise_answersBy ..) ?_
  cases hlayout : c.bcmLayout with
  | docPacked =>
    refine .congr (fun s hs => by rw [hs, hlayout]) ?_
    exact .ite (raise_answersBy ..) (finish_answersBy fun _ _ => rfl)
  | lp64 =>
    refine .congr (fun s hs => by rw [hs, hlayout]) ?_
    exact finish_answersBy fun _ _ => rfl

theorem execCospdo_answersBy (node channel len : Byte) (data : Payload) :
    AnswersBy c (execCospdo node channel len data) :=
  .ite (raise_answersBy ..) (.ite (raise_answersBy ..)
    (.ite (raise_answersBy ..) (finish_answersBy fun s hs => by rw [hs])))

theorem execCosnmt_answersBy (node cmd : Byte) : AnswersBy c (execCosnmt node cmd) := by
  unfold execCosnmt
  cases nmtCommandOf cmd with
  | none => exact raise_answersBy ..
  | some command => exact .ite (raise_answersBy ..) (finish_answersBy fun s hs => by rw [hs])

theorem execClsNmtState_answersBy (node : NodeAddr) (len state : Byte) :
    AnswersBy c (execClsNmtState node len state) :=
  .ite_of_iff (fun s hs => by rw [hs]) (raise_answersBy ..) (finish_answersBy fun _ _ => rfl)

theorem finishPdo_answersBy (code : ClassCode) (node : NodeAddr) (len : Byte) (data : Payload) :
    AnswersBy c (finishPdo code node len data) := finish_answersBy fun _ _ => rfl

/-- COCLS answers as the row of the frame does, and each row answers by the parameters. -/
theorem exec_cocls_answersBy (f : Frame) : AnswersBy c (exec (.cocls f)) := by
  rcases Nat.lt_or_ge 8 (dlen f).toNat with hlen | hlen
  · exact .congr (fun s _ => exec_cocls_of_malformed s hlen) (raise_answersBy ..)
  · refine .congr (fun s hs => by rw [exec_cocls_of_valid s hlen, hs]) ?_
    exact classRow_cases (motive := fun i => AnswersBy c (exec i)) _ _ _ _
      (finish_answersBy fun _ _ => rfl) (finishPdo_answersBy ..) (finishPdo_answersBy ..) (finishPdo_answersBy ..)
      (finishPdo_answersBy ..) (raise_answersBy ..) (execClsNmtState_answersBy ..) fun _ => raise_answersBy ..

/-- Every instruction, on all states with the parameters `c`, adds the same response and does nothing else. -/
theorem exec_answersBy (i : Instr) : AnswersBy c (exec i) := by
  cases i with
  | fenc => exact execFenc_answersBy ..
  | fdec => exact execFdec_answersBy ..
  | bcmsetup => exact execBcmsetup_answersBy ..
  | cocls => exact exec_cocls_answersBy ..
  | cospdo => exact execCospdo_answersBy ..
  | cosnmt => exact execCosnmt_answersBy ..
  | cossdo | illegal | clsSdo | clsUnrecognized => exact raise_answersBy ..
  | clsSync => exact finish_answersBy fun _ _ => rfl
  | clsPdo1 | clsPdo2 | clsPdo3 | clsPdo4 => exact finishPdo_answersBy ..
  | clsNmtState => exact execClsNmtState_answersBy ..

end

/-- All states with the parameters `c` whose oldest request is `b` answer it alike, whatever else waits in them. -/
theorem step_answersBy (c : Config) (b : RequestRecord) :
    ∃ r : Response, ∀ (s : State) (rest : List RequestRecord), s.cfg = c → s.requests = b :: rest →
      step s = .next (State.respond { s with requests := rest } r) := by
  obtain ⟨r, hr⟩ := exec_answersBy c (decodeRequest b)
  exact ⟨r, fun s rest hcfg hreq => (step_of_requests_cons hreq).trans (hr _ hcfg)⟩

/-! ## The statements -/

/-- Settles O8, by the validity of the frame's length byte. -/
theorem classifiedRowsAreWellFormed : Obligations.ClassifiedRowsAreWellFormed := by
  intro e f
  rcases Nat.lt_or_ge 8 (dlen f).toNat with hlen | hlen
  · exact .inr ⟨decodeFrame_of_malformed e hlen, hlen⟩
  · exact .inl ⟨_, decodeFrame_of_valid e hlen, classRow_wellFormed _ _ _ hlen, hlen⟩

/-- Settles O43: the one response of `step_answersBy` is the answer of both states. -/
theorem responseDependsOnRequestAndParametersOnly : Obligations.ResponseDependsOnRequestAndParametersOnly := by
  intro b s s' rest rest' hcfg hreq hreq'
  obtain ⟨r, hr⟩ := step_answersBy s.cfg b
  exact ⟨r.toBytes, hr s rest rfl hreq, hr s' rest' hcfg.symm hreq'⟩

/-- Settles O14: each of the three operations raises MALFORMED_FRAME at its first check. -/
theorem malformedFrameRejectedFirst : Obligations.MalformedFrameRejectedFirst := fun _ s hlen =>
  ⟨exec_fdec_of_malformed s hlen, exec_cocls_of_malformed s hlen,
    fun id32 us setTimer startTimer => exec_bcmsetup_of_malformed id32 us setTimer startTimer s hlen⟩

/-- Settles O40, by whether a request waits. -/
theorem stepRunsTheDecodedRequest : Obligations.StepRunsTheDecodedRequest := fun _ =>
  ⟨fun _ _ hreq => step_of_requests_cons hreq, step_of_requests_nil⟩

/-- Settles O49: a state in which no response waits satisfies the invariant. -/
theorem resetStateIsLegal : Obligations.ResetStateIsLegal :=
  ⟨State.inv_of_responses_nil State.reset_responses, State.reset_requests, State.reset_responses⟩

end Machine

end Sys2Proof
end

section
/-!
PROOFS. The statements of 20_memory.md: the value of a multi-byte field, the bytes of a frame record the block writes,
the one response an instruction adds, and the answers of a queue of requests.
-/

namespace Sys2Proof

/-! ## The value of a field is the weighted sum of its bytes (R41) -/

theorem leValue_eq_sum {n : Nat} (bs : List Byte) (h : bs.length = n) :
    leValue bs = ∑ i : Fin n, bs[i.1].toNat * 2 ^ (8 * i.1) := by
  subst h
  induction bs with
  | nil => rfl
  | cons b bs ih =>
    have hshift : ∀ i : Fin bs.length, bs[i.1].toNat * 2 ^ (8 * (i.1 + 1)) = 256 * (bs[i.1].toNat * 2 ^ (8 * i.1)) :=
      fun i => by ring
    simp only [leValue, ih, List.length_cons, Fin.sum_univ_succ, Finset.mul_sum, Fin.val_zero, Fin.val_succ,
      List.getElem_cons_zero, List.getElem_cons_succ, hshift, Nat.mul_zero, Nat.pow_zero, Nat.mul_one]

section
variable {m : Nat} (v : Bytes m) (off n : Nat) (h : off + n ≤ m)

theorem slice_toList_getElem (i : Nat) (hi : i < n) : (slice v off n h).toList[i]'(by simp [hi]) = v[off + i] := by
  rw [Vector.getElem_toList, slice_getElem v off n h i hi]

theorem memRead_little_eq_sum : memRead .little v off n h = ∑ i : Fin n, v[off + i.1].toNat * 2 ^ (8 * i.1) := by
  refine (leValue_eq_sum (slice v off n h).toList (by simp)).trans (Finset.sum_congr rfl fun i _ => ?_)
  rw [slice_toList_getElem v off n h i.1 i.2]

/-- Under BIG the field is summed reversed: the byte at offset `i` is the one at `n - 1 - i` of the reversed field. -/
theorem memRead_big_eq_sum :
    memRead .big v off n h = ∑ i : Fin n, v[off + i.1].toNat * 2 ^ (8 * (n - 1 - i.1)) := by
  have hrev : memRead .big v off n h = ∑ i : Fin n, v[off + i.rev.1].toNat * 2 ^ (8 * i.1) := by
    refine (leValue_eq_sum (slice v off n h).toList.reverse (by simp)).trans (Finset.sum_congr rfl fun i _ => ?_)
    rw [List.getElem_reverse]
    simp only [Vector.length_toList, Fin.val_rev, Nat.sub_sub, Nat.add_comm 1]
    rw [slice_toList_getElem v off n h _ (by omega)]
  rw [hrev, ← Equiv.sum_comp Fin.revPerm]
  refine Finset.sum_congr rfl fun i _ => ?_
  simp only [Fin.revPerm_apply, Fin.rev_rev, Fin.val_rev, Nat.sub_sub, Nat.add_comm 1]

/-- A field that holds the bytes `MemWrite` puts there reads back as the value written (R10, R41). -/
theorem memRead_of_memBytes (e : Endian) (w : Nat) (hw : w < 2 ^ (8 * n))
    (hbytes : ∀ i : Fin n, some v[off + i.1] = (memBytes e n w)[i.1]?) : memRead e v off n h = w := by
  have hfield : (slice v off n h).toList = memBytes e n w := by
    refine List.ext_getElem (by simp) fun i hi hi' => ?_
    have hin : i < n := by simpa using hi
    rw [slice_toList_getElem v off n h i hin, ← Option.some_inj, hbytes ⟨i, hin⟩, List.getElem?_eq_getElem hi']
  rw [memRead, hfield, leValue_inOrder_memBytes e n w (by rwa [Nat.pow_mul] at hw)]

end

/-! ## The bytes of a field and of a frame record (R41, R70) -/

theorem leBytes_getElem {n : Nat} (v i : Nat) (h : i < n) :
    (leBytes n v)[i]'(by simp [h]) = BitVec.ofNat 8 (v >>> (8 * i)) := by
  induction n generalizing v i with
  | zero => omega
  | succ n ih =>
    cases i with
    | zero => rfl
    | succ i =>
      have hshift : v >>> (8 * (i + 1)) = (v / 256) >>> (8 * i) := by
        rw [Nat.mul_succ, Nat.add_comm, Nat.shiftRight_add, Nat.shiftRight_eq_div_pow v 8]
      simp only [leBytes, List.getElem_cons_succ, ih (v / 256) i (by omega), hshift]

theorem memBytes_little_getElem {n w : Nat} (x : BitVec w) (i : Nat) (h : i < n) :
    (memBytes .little n x.toNat)[i]'(by simp [h]) = x.extractLsb' (8 * i) 8 :=
  leBytes_getElem x.toNat i h

theorem memBytes_big_getElem {n w : Nat} (x : BitVec w) (i : Nat) (h : i < n) :
    (memBytes .big n x.toNat)[i]'(by simp [h]) = x.extractLsb' (8 * (n - 1 - i)) 8 := by
  simp only [memBytes, inOrder, List.getElem_reverse, leBytes_length]
  exact leBytes_getElem x.toNat (n - 1 - i) (by omega)

section
variable (e : Endian) (raw : Word) (len : Byte) (buf : Payload) (i : Nat)

theorem mkFrame_getElem_rawId (h : i < 4) :
    (mkFrame e raw len buf)[i] = (memBytes e 4 raw.toNat)[i]'(by simp [h]) := by
  rw [← Vector.getElem_toList (by simp; omega)]
  simp only [mkFrame_toList, List.append_assoc]
  exact List.getElem_append_left (by simp [h])

theorem mkFrame_getElem_padding (h : i < 3) : (mkFrame e raw len buf)[5 + i] = 0 := by
  rw [← slice_getElem _ 5 3 (by decide) i h, padding_mkFrame, zeroBytes, Vector.getElem_replicate]

theorem mkFrame_getElem_data (h : i < 8) : (mkFrame e raw len buf)[8 + i] = buf[i] := by
  rw [← slice_getElem _ 8 8 (by decide) i h]
  exact congrArg (·[i]) (fdata_mkFrame e raw len buf)

end

namespace Machine

/-! ## The answers of a queue (R49) -/

/-- What the block answers to a request depends on the parameters and the request alone (R20). -/
theorem exists_answer : ∃ answer : Config → RequestRecord → Response,
    ∀ (s : State) (b : RequestRecord) (rest : List RequestRecord), s.requests = b :: rest →
      step s = .next (State.respond { s with requests := rest } (answer s.cfg b)) := by
  choose answer hanswer using step_answersBy
  exact ⟨answer, fun s b rest => hanswer s.cfg b s rest rfl⟩

theorem core_run_succ_of_step {s t : State} (k : Nat) (h : step s = .next t) : core.run (k + 1) s = core.run k t := by
  have hcore : core.step s = .next t := h
  simp only [Host.Core.run, hcore]

/-- As many steps as requests wait answer them all, each by its own answer and in the order presented. -/
theorem core_run_requests {answer : Config → RequestRecord → Response}
    (hanswer : ∀ (s : State) (b : RequestRecord) (rest : List RequestRecord), s.requests = b :: rest →
      step s = .next (State.respond { s with requests := rest } (answer s.cfg b)))
    (bs : List RequestRecord) (s : State) (hs : s.requests = bs) :
    core.run bs.length s =
      .next { s with requests := [], responses := s.responses ++ bs.map fun b => (answer s.cfg b).toBytes } := by
  induction bs generalizing s with
  | nil =>
    have hidle : s = { s with requests := [], responses := s.responses ++ [] } := by rw [List.append_nil, ← hs]
    exact congrArg Host.Outcome.next hidle
  | cons b rest ih =>
    rw [List.length_cons, core_run_succ_of_step rest.length (hanswer s b rest hs), ih _ rfl]
    simp [State.respond]

/-! ## The statements -/

/-- Settles O6: the sum for each byte order, and the field that holds the written bytes. -/
theorem multiByteFieldsFollowEndian : Obligations.MultiByteFieldsFollowEndian :=
  ⟨fun _ v off n h => ⟨memRead_little_eq_sum v off n h, memRead_big_eq_sum v off n h⟩,
    fun e _ v off n w h hw => memRead_of_memBytes v off n h e w hw⟩

/-- Settles O7, field by field of R70. -/
theorem frameRecordLayout : Obligations.FrameRecordLayout := by
  intro e raw len buf
  refine ⟨fun i => ?_, dlen_mkFrame e raw len buf, mkFrame_getElem_padding e raw len buf 0 (by decide),
    mkFrame_getElem_padding e raw len buf 1 (by decide), mkFrame_getElem_padding e raw len buf 2 (by decide),
    fun i => mkFrame_getElem_data e raw len buf i.1 i.2⟩
  refine (mkFrame_getElem_rawId e raw len buf i.1 i.2).trans ?_
  cases e with
  | little => exact memBytes_little_getElem raw i.1 i.2
  | big => exact memBytes_big_getElem raw i.1 i.2

/-- Settles O42: the added response leaves the parameters as they are, so the second answer is that of the first. -/
theorem operationsOnlyAddTheirResponse : Obligations.OperationsOnlyAddTheirResponse := by
  intro i s
  obtain ⟨r, hr⟩ := exec_answersBy s.cfg i
  refine ⟨r, hr s rfl, (hr (s.respond r) rfl).trans ?_⟩
  simp [State.respond]

/-- Settles O44, by induction on the waiting requests. -/
theorem queuedRequestsAnsweredInOrder : Obligations.QueuedRequestsAnsweredInOrder := by
  obtain ⟨answer, hanswer⟩ := exists_answer
  exact ⟨fun c b => (answer c b).toBytes, fun s => core_run_requests hanswer s.requests s rfl⟩

/-- Settles O2: the decoder evaluates on each written-out record. -/
theorem specRecordsDecode : Obligations.SpecRecordsDecode :=
  ⟨rfl, rfl, rfl, rfl, rfl, rfl⟩

end Machine

end Sys2Proof
end

section
/-!
PROOFS. The statements of 30_encoding.md: the fields of the two records as their bytes, the decoder on the encoder's records,
the records and envelopes the operations answer, and what a line assembles to.
-/

namespace Sys2Proof

/-! ## A little-endian field as its bytes, most significant first (R42) -/

/-- The first byte of a little-endian field is the low byte of its value. -/
theorem ofNat_leValue_cons {w : Nat} (b : Byte) (bs : List Byte) :
    BitVec.ofNat (w + 8) (leValue (b :: bs)) = BitVec.ofNat w (leValue bs) ++ b := by
  apply BitVec.eq_of_toNat_eq
  have hb : b.toNat < 2 ^ 8 := b.isLt
  rw [BitVec.toNat_append, ← Nat.shiftLeft_add_eq_or_of_lt hb, Nat.shiftLeft_eq, BitVec.toNat_ofNat, BitVec.toNat_ofNat,
    leValue, Nat.pow_add]
  have hlow : (b.toNat + 256 * leValue bs) % 2 ^ 8 = b.toNat := by omega
  have hhigh : (b.toNat + 256 * leValue bs) / 2 ^ 8 = leValue bs := by omega
  rw [Nat.mul_comm (2 ^ w), Nat.mod_mul, hlow, hhigh, Nat.mul_comm, Nat.add_comm]

theorem ofNat_leValue_singleton (b : Byte) : BitVec.ofNat 8 (leValue [b]) = b := by
  rw [leValue, leValue, Nat.mul_zero, Nat.add_zero, BitVec.ofNat_toNat, BitVec.setWidth_eq]

theorem append_eq_zero_iff {m n : Nat} {x : BitVec m} {y : BitVec n} : x ++ y = 0 ↔ x = 0 ∧ y = 0 := by
  refine ⟨fun h => ⟨?_, ?_⟩, ?_⟩
  · rw [← BitVec.extractLsb'_append_eq_left (a := x) (b := y), h]; simp
  · rw [← BitVec.extractLsb'_append_eq_right (a := x) (b := y), h]; simp
  · rintro ⟨rfl, rfl⟩; exact BitVec.zero_append_zero

section
variable {m : Nat} (v : Bytes m) (off : Nat)

/-- The bytes of a field one by one. -/
theorem slice_toList_succ (n : Nat) (h : off + (n + 1) ≤ m) :
    (slice v off (n + 1) h).toList = v[off] :: (slice v (off + 1) n (by omega)).toList := by
  rw [slice_toList, List.drop_eq_getElem_cons (by simp; omega), List.take_succ_cons, Vector.getElem_toList, slice_toList]

theorem slice_toList_append (n k : Nat) (h : off + (n + k) ≤ m) :
    (slice v off (n + k) h).toList =
      (slice v off n (by omega)).toList ++ (slice v (off + n) k (by omega)).toList := by
  simp only [slice_toList, List.take_add, List.drop_drop]

theorem slice_full (h : 0 + m ≤ m) : slice v 0 m h = v := by
  apply bytes_ext
  rw [slice_toList, List.drop_zero, List.take_of_length_le (by simp)]

theorem ofNat_memRead_little_succ (w n : Nat) (h : off + (n + 1) ≤ m) :
    BitVec.ofNat (w + 8) (memRead .little v off (n + 1) h) =
      BitVec.ofNat w (memRead .little v (off + 1) n (by omega)) ++ v[off] := by
  rw [memRead, inOrder, slice_toList_succ, ofNat_leValue_cons]
  rfl

theorem ofNat_memRead_little_one (h : off + 1 ≤ m) : BitVec.ofNat 8 (memRead .little v off 1 h) = v[off] := by
  rw [memRead, inOrder, slice_toList_succ v off 0 h]
  exact ofNat_leValue_singleton v[off]

theorem ofNat_memRead_little_two (h : off + 2 ≤ m) :
    BitVec.ofNat 16 (memRead .little v off 2 h) = v[off + 1] ++ v[off] :=
  (ofNat_memRead_little_succ v off 8 1 h).trans (by rw [ofNat_memRead_little_one])

theorem ofNat_memRead_little_four (h : off + 4 ≤ m) :
    BitVec.ofNat 32 (memRead .little v off 4 h) = v[off + 3] ++ v[off + 2] ++ v[off + 1] ++ v[off] := by
  rw [show BitVec.ofNat 32 _ = _ from ofNat_memRead_little_succ v off 24 3 h,
    show BitVec.ofNat 24 _ = _ from ofNat_memRead_little_succ v (off + 1) 16 2 (by omega), ofNat_memRead_little_two]

theorem ofNat_memRead_little_eight (h : off + 8 ≤ m) :
    BitVec.ofNat 64 (memRead .little v off 8 h) =
      v[off + 7] ++ v[off + 6] ++ v[off + 5] ++ v[off + 4] ++ v[off + 3] ++ v[off + 2] ++ v[off + 1] ++ v[off] := by
  rw [show BitVec.ofNat 64 _ = _ from ofNat_memRead_little_succ v off 56 7 h,
    show BitVec.ofNat 56 _ = _ from ofNat_memRead_little_succ v (off + 1) 48 6 (by omega),
    show BitVec.ofNat 48 _ = _ from ofNat_memRead_little_succ v (off + 1 + 1) 40 5 (by omega),
    show BitVec.ofNat 40 _ = _ from ofNat_memRead_little_succ v (off + 1 + 1 + 1) 32 4 (by omega),
    ofNat_memRead_little_four]

/-- Writing a field's value back where it was read gives the field's bytes. -/
theorem memBytes_little_ofNat_memRead (n : Nat) (h : off + n ≤ m) :
    memBytes .little n (BitVec.ofNat (8 * n) (memRead .little v off n h)).toNat = (slice v off n h).toList := by
  have hlt : memRead .little v off n h < 2 ^ (8 * n) := by
    simpa [memRead, inOrder, Nat.pow_mul] using leValue_lt (slice v off n h).toList
  rw [BitVec.toNat_ofNat, Nat.mod_eq_of_lt hlt]
  simpa [memBytes, inOrder, memRead] using leBytes_leValue (slice v off n h).toList

end
/-! ## The fields of a request record (R60, R61) -/

namespace Request

section
variable (b : RequestRecord)

theorem ofBytes_rsv0 : (ofBytes b).rsv0 = b[7] ++ b[6] := ofNat_memRead_little_two b 6 _

theorem ofBytes_id32 : (ofBytes b).id32 = b[11] ++ b[10] ++ b[9] ++ b[8] := ofNat_memRead_little_four b 8 _

theorem ofBytes_rsv1 : (ofBytes b).rsv1 = b[15] ++ b[14] ++ b[13] ++ b[12] := ofNat_memRead_little_four b 12 _

theorem ofBytes_intervalUs :
    (ofBytes b).intervalUs = b[23] ++ b[22] ++ b[21] ++ b[20] ++ b[19] ++ b[18] ++ b[17] ++ b[16] :=
  ofNat_memRead_little_eight b 16 _

theorem ofBytes_data_getElem (i : Nat) (h : i < 8) : (ofBytes b).data[i] = b[24 + i] := slice_getElem b 24 8 (by decide) i h

theorem ofBytes_frame_getElem (i : Nat) (h : i < 16) : (ofBytes b).frame[i] = b[32 + i] := slice_getElem b 32 16 (by decide) i h

theorem ofBytes_data : (ofBytes b).data = Vector.ofFn fun i => b[24 + i.1] :=
  Vector.ext fun i h => by rw [ofBytes_data_getElem b i h, Vector.getElem_ofFn]

theorem ofBytes_frame : (ofBytes b).frame = Vector.ofFn fun i => b[32 + i.1] :=
  Vector.ext fun i h => by rw [ofBytes_frame_getElem b i h, Vector.getElem_ofFn]

/-- The fields laid out again are adjacent slices of the record. -/
theorem toBytes_ofBytes : (ofBytes b).toBytes = b := by
  have hhead : [b[0], b[1], b[2], b[3], b[4], b[5]] = (slice b 0 6).toList := by
    rw [slice_toList_succ, slice_toList_succ, slice_toList_succ, slice_toList_succ, slice_toList_succ, slice_toList_succ]
    rfl
  apply bytes_ext
  calc (ofBytes b).toBytes.toList
      = (slice b 0 6).toList ++ (slice b 6 2).toList ++ (slice b 8 4).toList ++ (slice b 12 4).toList
          ++ (slice b 16 8).toList ++ (slice b 24 8).toList ++ (slice b 32 16).toList := by
        rw [toBytes_toList, ← hhead, ← memBytes_little_ofNat_memRead b 6 2, ← memBytes_little_ofNat_memRead b 8 4,
          ← memBytes_little_ofNat_memRead b 12 4, ← memBytes_little_ofNat_memRead b 16 8]
        rfl
    _ = (slice b 0 48).toList := by
        rw [← slice_toList_append b 0 6 2 (by decide), ← slice_toList_append b 0 8 4 (by decide),
          ← slice_toList_append b 0 12 4 (by decide), ← slice_toList_append b 0 16 8 (by decide),
          ← slice_toList_append b 0 24 8 (by decide), ← slice_toList_append b 0 32 16 (by decide)]
    _ = b.toList := by rw [slice_full]

end

theorem reservedSet_eq_false_iff {q : Request} :
    q.reservedSet = false ↔ q.flags.extractLsb' 4 4 = 0 ∧ q.rsv0 = 0 ∧ q.rsv1 = 0 := by
  simp [reservedSet, and_assoc]

/-- The reserved bits of a record are the upper half of byte 1 and the bytes of `rsv0` and `rsv1` (R61). -/
theorem ofBytes_reservedSet_iff (b : RequestRecord) : (ofBytes b).reservedSet = true ↔
    b[1].extractLsb' 4 4 ≠ 0 ∨ b[6] ≠ 0 ∨ b[7] ≠ 0 ∨ b[12] ≠ 0 ∨ b[13] ≠ 0 ∨ b[14] ≠ 0 ∨ b[15] ≠ 0 := by
  have hflags : (ofBytes b).flags = b[1] := rfl
  rw [← Bool.not_eq_false, reservedSet_eq_false_iff, ofBytes_rsv0, ofBytes_rsv1, hflags]
  rw [append_eq_zero_iff, append_eq_zero_iff, append_eq_zero_iff, append_eq_zero_iff]
  tauto

end Request

section
variable (rtr err setTimer startTimer : Bool)

theorem flagsByte_bits :
    (flagsByte rtr err setTimer startTimer).getLsbD 0 = rtr ∧ (flagsByte rtr err setTimer startTimer).getLsbD 1 = err ∧
    (flagsByte rtr err setTimer startTimer).getLsbD 2 = setTimer ∧
    (flagsByte rtr err setTimer startTimer).getLsbD 3 = startTimer := by
  revert rtr err setTimer startTimer; decide

theorem flagsByte_reserved : (flagsByte rtr err setTimer startTimer).extractLsb' 4 4 = 0 := by
  revert rtr err setTimer startTimer; decide

end

/-! ## Decoding a request (R62, R68) -/

/-- The instruction of a mnemonic, with the fields of a request it reads. -/
def Machine.AsmOp.instr (q : Request) : AsmOp → Instr
  | .fenc => .fenc q.id32 q.len q.data (q.flags.getLsbD 0) (q.flags.getLsbD 1)
  | .fdec => .fdec q.frame
  | .bcmsetup => .bcmsetup q.id32 q.intervalUs (q.flags.getLsbD 2) (q.flags.getLsbD 3) q.frame
  | .cocls => .cocls q.frame
  | .cospdo => .cospdo q.node q.channel q.len q.data
  | .cosnmt => .cosnmt q.node q.cmd
  | .cossdo => .cossdo

open Machine

theorem mem_assignedOps_iff {op : Byte} : op ∈ assignedOps ↔ ∃ m : AsmOp, op = m.selector := by
  constructor
  · intro h
    simp only [assignedOps, List.mem_cons, List.not_mem_nil, or_false] at h
    obtain h | h | h | h | h | h | h := h
    exacts [⟨.fenc, h⟩, ⟨.fdec, h⟩, ⟨.bcmsetup, h⟩, ⟨.cocls, h⟩, ⟨.cospdo, h⟩, ⟨.cosnmt, h⟩, ⟨.cossdo, h⟩]
  · rintro ⟨m, rfl⟩
    cases m <;> decide

section
variable {q : Request}

theorem decodeFields_of_illegal (h : q.op ∉ assignedOps ∨ q.reservedSet = true) : decodeFields q = .illegal q.op := by
  unfold decodeFields
  obtain hop | hrsv := h
  · exact if_pos (by simpa using hop)
  · simp only [hrsv, if_true, ite_self]

theorem decodeFields_of_selector (m : AsmOp) (hop : q.op = m.selector) (hrsv : q.reservedSet = false) :
    decodeFields q = m.instr q := by
  have hmem : assignedOps.contains q.op = true := by simpa using mem_assignedOps_iff.mpr ⟨m, hop⟩
  rw [decodeFields, hmem, hrsv, hop]
  cases m <;> rfl

/-- A request is the illegal request of its `op` byte or one of the seven operations. -/
theorem decodeFields_cases (q : Request) :
    decodeFields q = .illegal q.op ∨ ∃ m : AsmOp, decodeFields q = m.instr q := by
  by_cases hbad : q.op ∉ assignedOps ∨ q.reservedSet = true
  · exact .inl (decodeFields_of_illegal hbad)
  · push Not at hbad
    obtain ⟨hmem, hrsv⟩ := hbad
    obtain ⟨m, hop⟩ := mem_assignedOps_iff.mp hmem
    exact .inr ⟨m, decodeFields_of_selector m hop (by simpa using hrsv)⟩

end

theorem decodeRequest_toBytes (q : Request) : decodeRequest q.toBytes = decodeFields q := by
  rw [decodeRequest, Request.ofBytes_toBytes]

/-- The record of a request with an assigned selector and no reserved bit set. -/
theorem decodeRequest_of_selector {q : Request} (m : AsmOp) (hop : q.op = m.selector)
    (hflags : q.flags.extractLsb' 4 4 = 0) (hrsv0 : q.rsv0 = 0) (hrsv1 : q.rsv1 = 0) :
    decodeRequest q.toBytes = m.instr q := by
  have hrsv : q.reservedSet = false := Request.reservedSet_eq_false_iff.mpr ⟨hflags, hrsv0, hrsv1⟩
  rw [decodeRequest_toBytes, decodeFields_of_selector m hop hrsv]

/-! ## The decoder on whole records (R40, R76) -/

theorem decode_request (e : Endian) (b : RequestRecord) : decode e b.toList = .ok (decodeRequest b) :=
  dif_pos (by simp)

theorem decode_frame (e : Endian) (f : Frame) : decode e f.toList = decodeFrame e f := by
  have h48 : ¬ f.toList.length = 48 := by simp
  have h16 : f.toList.length = 16 := by simp
  exact (dif_neg h48).trans (dif_pos h16)

theorem decode_toBytes_of_selector (e : Endian) {q : Request} (m : AsmOp) (hop : q.op = m.selector)
    (hflags : q.flags.extractLsb' 4 4 = 0) (hrsv0 : q.rsv0 = 0) (hrsv1 : q.rsv1 = 0) :
    decode e q.toBytes.toList = .ok (m.instr q) := by
  rw [decode_request, decodeRequest_of_selector m hop hflags hrsv0 hrsv1]

/-- Masking keeps the low 29 bits, so it gives an identifier of the extended range back (R101, R111). -/
theorem numericId_promoted {id : Word} (h : id.toNat ≤ 0x1FFFFFFF) : numericId (promoted id) = id := by
  have hand : ∀ k, id.toNat < 2 ^ k → id.toNat &&& (2 ^ k - 1) = id.toNat := fun k hk => by
    rw [Nat.and_two_pow_sub_one_eq_mod, Nat.mod_eq_of_lt hk]
  unfold promoted numericId
  split_ifs with hext h31 h31
  · have heff : effFlag &&& effMask = 0 := by decide
    rw [BitVec.and_or_distrib_right, heff]
    refine BitVec.or_zero.trans ?_
    exact BitVec.eq_of_toNat_eq (hand 29 (by omega))
  · simp [effFlag] at h31
  · have hlt : id.toNat < 2 ^ 31 := by omega
    rw [BitVec.getLsbD, Nat.testBit_lt_two_pow hlt] at h31
    cases h31
  · exact BitVec.eq_of_toNat_eq (hand 11 (by omega))

section
variable (code : ClassCode) (node : NodeAddr)

theorem classCode_append : classCode ((code ++ node).setWidth 32) = code := by
  rw [classCode, BitVec.extractLsb'_setWidth_of_le (by decide), BitVec.extractLsb'_append_eq_left]

theorem nodeOf_append : nodeOf ((code ++ node).setWidth 32) = node := by
  rw [nodeOf, BitVec.extractLsb'_setWidth_of_le (by decide), BitVec.extractLsb'_append_eq_right]

/-- The byte order in which a frame is laid out and read does not reach the row it decodes to. -/
theorem decodeFrame_mkFrame (e : Endian) (raw : Word) {len : Byte} (buf : Payload) (h : len.toNat ≤ 8) :
    decodeFrame e (mkFrame e raw len buf) = .ok (classRow (classCode (numericId raw)) (nodeOf (numericId raw)) len buf) := by
  rw [decodeFrame_of_valid e (by rwa [dlen_mkFrame]), rawId_mkFrame, dlen_mkFrame, fdata_mkFrame]

theorem decode_classFrame (e : Endian) {len : Byte} (buf : Payload) (h : len.toNat ≤ 8) :
    decode e (classFrame e code node len buf).toList = .ok (classRow code node len buf) := by
  have hid : ((code ++ node).setWidth 32 : Word).toNat ≤ 0x1FFFFFFF := by
    have := (code ++ node).isLt
    rw [BitVec.toNat_setWidth]
    omega
  rw [decode_frame, classFrame, decodeFrame_mkFrame e _ buf h, numericId_promoted hid, classCode_append, nodeOf_append]

theorem classRow_of_not_recognized (len : Byte) (buf : Payload) (h : code ∉ recognizedCodes) :
    classRow code node len buf = .clsUnrecognized code node := by
  simp only [recognizedCodes, List.mem_cons, List.not_mem_nil, or_false, not_or] at h
  obtain ⟨h1, h3, h5, h7, h9, h11, h14⟩ := h
  simp only [classRow, h1, h3, h5, h7, h9, h11, h14, if_false]

end

theorem illegalRequest_illegal (op : Byte) :
    op ∉ assignedOps ∨ (illegalRequest op).reservedSet = true := by
  by_cases hop : op ∈ assignedOps
  · exact .inr (by simp [Request.reservedSet, illegalRequest, hop])
  · exact .inl hop

/-- The encoding of each instruction decodes to it: a request by its selector, a row by its function code. -/
theorem decode_encode (e : Endian) (i : Instr) (h : i.wellFormed = true) : decode e (encode e i) = .ok i := by
  cases i with
  | fenc id32 len data rtr err =>
    obtain ⟨hrtr, herr, -⟩ := flagsByte_bits rtr err false false
    rw [encode, decode_toBytes_of_selector e .fenc, AsmOp.instr, hrtr, herr]
    exacts [rfl, flagsByte_reserved .., rfl, rfl]
  | bcmsetup id32 us setTimer startTimer frame =>
    obtain ⟨-, -, hset, hstart⟩ := flagsByte_bits false false setTimer startTimer
    rw [encode, decode_toBytes_of_selector e .bcmsetup, AsmOp.instr, hset, hstart]
    exacts [rfl, flagsByte_reserved .., rfl, rfl]
  | fdec frame => exact decode_toBytes_of_selector e .fdec rfl BitVec.extractLsb'_zero rfl rfl
  | cocls frame => exact decode_toBytes_of_selector e .cocls rfl BitVec.extractLsb'_zero rfl rfl
  | cospdo node channel len data => exact decode_toBytes_of_selector e .cospdo rfl BitVec.extractLsb'_zero rfl rfl
  | cosnmt node cmd => exact decode_toBytes_of_selector e .cosnmt rfl BitVec.extractLsb'_zero rfl rfl
  | cossdo => exact decode_toBytes_of_selector e .cossdo rfl BitVec.extractLsb'_zero rfl rfl
  | illegal op =>
    rw [encode, decode_request, decodeRequest_toBytes, decodeFields_of_illegal (illegalRequest_illegal op)]
    rfl
  | clsSync node len => exact decode_classFrame 1 node e _ (validLen_iff.mp h)
  | clsPdo1 node len data => exact decode_classFrame 3 node e data (validLen_iff.mp h)
  | clsPdo2 node len data => exact decode_classFrame 5 node e data (validLen_iff.mp h)
  | clsPdo3 node len data => exact decode_classFrame 7 node e data (validLen_iff.mp h)
  | clsPdo4 node len data => exact decode_classFrame 9 node e data (validLen_iff.mp h)
  | clsSdo node => exact decode_classFrame 11 node e _ (by decide)
  | clsNmtState node len state => exact decode_classFrame 14 node e _ (validLen_iff.mp h)
  | clsUnrecognized code node =>
    have hcode : code ∉ recognizedCodes := by simpa [Instr.wellFormed] using h
    rw [encode, decode_classFrame code node e _ (by decide), classRow_of_not_recognized code node _ _ hcode]

/-! ## The words of the opcode table (R62, R76) -/

theorem decodeFrame_wordFrame (e e' : Endian) (w : Nat) :
    decodeFrame e (wordFrame e w) = decodeFrame e' (wordFrame e' w) := by
  have hlen : (0 : Byte).toNat ≤ 8 := by decide
  rw [wordFrame, wordFrame, decodeFrame_mkFrame e _ _ hlen, decodeFrame_mkFrame e' _ _ hlen]

namespace Machine

theorem exec_cocls_of_decodeFrame {f : Frame} {i : Instr} {s : State} (h : decodeFrame s.cfg.endian f = .ok i) :
    exec (.cocls f) s = exec i s := by
  rcases Nat.lt_or_ge 8 (dlen f).toNat with hlen | hlen
  · rw [decodeFrame_of_malformed _ hlen] at h
    cases h
  · rw [decodeFrame_of_valid _ hlen] at h
    cases h
    exact exec_cocls_of_valid s hlen

/-- The record that stands for a table word runs as the word's instruction. -/
theorem exec_decodeRequest_tableRequest {nbits w : Nat} {i : Instr} (s : State) (h : decodeTableWord nbits w = some i) :
    exec (decodeRequest (tableRequest s.cfg.endian nbits w)) s = exec i s := by
  unfold decodeTableWord at h
  unfold tableRequest
  split_ifs at h ⊢ with hid
  · rw [decodeFrame_wordFrame .little s.cfg.endian] at h
    have hrow : decodeFrame s.cfg.endian (wordFrame s.cfg.endian (w % 2 ^ nbits)) = .ok i := by
      cases hf : decodeFrame s.cfg.endian (wordFrame s.cfg.endian (w % 2 ^ nbits)) with
      | error => rw [hf] at h; cases h
      | ok j => rw [hf] at h; cases h; rfl
    rw [decodeRequest_of_selector .cocls rfl BitVec.extractLsb'_zero rfl rfl]
    exact exec_cocls_of_decodeFrame hrow
  · cases h
    rfl

/-! ## The statements on the decoder and the request record -/

/-- Settles O1, by cases on the instruction. -/
theorem decodeEncodeRoundTrip : Obligations.DecodeEncodeRoundTrip := decode_encode

/-- Settles O3: the reserved bits of the record are those of its fields, and its selector names the operation. -/
theorem requestDecodesBySelectorAndReservedBits : Obligations.RequestDecodesBySelectorAndReservedBits := by
  intro b reserved assigned id32 us data frame
  have hrsv : (Request.ofBytes b).reservedSet = true ↔ reserved := Request.ofBytes_reservedSet_iff b
  have hoperation (m : AsmOp) (hr : ¬ reserved) (hop : b[0] = m.selector) :
      decodeRequest b = m.instr (Request.ofBytes b) :=
    decodeFields_of_selector m hop (by rwa [← Bool.not_eq_true, hrsv])
  have hid32 : (Request.ofBytes b).id32 = id32 := Request.ofBytes_id32 b
  have hus : (Request.ofBytes b).intervalUs = us := Request.ofBytes_intervalUs b
  have hdata : (Request.ofBytes b).data = data := Request.ofBytes_data b
  have hframe : (Request.ofBytes b).frame = frame := Request.ofBytes_frame b
  refine ⟨fun hbad => ?_, fun hr hop => ?_, fun hr hop => ?_, fun hr hop => ?_, fun hr hop => ?_, fun hr hop => ?_,
    fun hr hop => ?_, fun hr hop => ?_⟩
  · have hillegal : decodeRequest b = .illegal b[0] := decodeFields_of_illegal (hbad.imp_right hrsv.mpr)
    exact ⟨hillegal, fun s => by rw [hillegal]; rfl⟩
  · rw [hoperation .fenc hr hop, AsmOp.instr, hid32, hdata]; rfl
  · rw [hoperation .fdec hr hop, AsmOp.instr, hframe]
  · rw [hoperation .bcmsetup hr hop, AsmOp.instr, hid32, hus, hframe]; rfl
  · rw [hoperation .cocls hr hop, AsmOp.instr, hframe]
  · rw [hoperation .cospdo hr hop, AsmOp.instr, hdata]; rfl
  · exact hoperation .cosnmt hr hop
  · exact hoperation .cossdo hr hop

/-- Settles O4. -/
theorem requestFieldsCoverTheRecord : Obligations.RequestFieldsCoverTheRecord := Request.toBytes_ofBytes

/-- Settles O41: the placed record is the oldest request of the next step. -/
theorem tableWordRunsAsTheNextInstruction : Obligations.TableWordRunsAsTheNextInstruction := fun s nbits w _ h =>
  (step_of_requests_cons (State.presentFirst_requests s (tableRequest s.cfg.endian nbits w))).trans
    (exec_decodeRequest_tableRequest s h)

/-! ## The fields of a response record (R63) -/

namespace Response

section
variable (b : ResponseRecord)

theorem ofBytes_value32 : (ofBytes b).value32 = b[11] ++ b[10] ++ b[9] ++ b[8] := ofNat_memRead_little_four b 8 _

theorem ofBytes_blobLen : (ofBytes b).blobLen = b[15] ++ b[14] ++ b[13] ++ b[12] := ofNat_memRead_little_four b 12 _

theorem ofBytes_data_getElem (i : Nat) (h : i < 8) : (ofBytes b).data[i] = b[16 + i] :=
  slice_getElem b 16 8 (by decide) i h

theorem ofBytes_blob_getElem (i : Nat) (h : i < 72) : (ofBytes b).blob[i] = b[24 + i] :=
  slice_getElem b 24 72 (by decide) i h

end

end Response

/-- Settles O5: each field that is read back from the record is the field that was written. -/
theorem responseRecordLayout : Obligations.ResponseRecordLayout := by
  intro r b
  have hr : Response.ofBytes b = r := Response.ofBytes_toBytes r
  have hvalue : b[11] ++ b[10] ++ b[9] ++ b[8] = r.value32 := by rw [← Response.ofBytes_value32, hr]
  have hblobLen : b[15] ++ b[14] ++ b[13] ++ b[12] = r.blobLen := by rw [← Response.ofBytes_blobLen, hr]
  exact ⟨(congrArg Response.status hr :), (congrArg Response.kind hr :), (congrArg Response.oflags hr :), (congrArg Response.len hr :),
    (congrArg Response.channel hr :), (congrArg Response.nmtState hr :), (congrArg Response.node hr :), (congrArg Response.nmtRaw hr :),
    hvalue, hblobLen, fun i => by rw [← Response.ofBytes_data_getElem b i.1 i.2, hr]; rfl,
    fun i => by rw [← Response.ofBytes_blob_getElem b i.1 i.2, hr]; rfl⟩

end Machine

end Sys2Proof
end

section
/-!
PROOFS. The statements of 30_encoding.md on the records the operations answer: FRAME records (R77, R79), envelopes (R73, R74),
the NMT state message (R78), and what every waiting response is (R63 to R67).
-/

namespace Sys2Proof.Machine

/-! ## FRAME responses (R65, R102) -/

/-- The response that carries a frame record. -/
def frameResponse (f : Frame) : Response := { kind := 0x02, blobLen := 16, blob := blobOf f.toList }

theorem frameResponse_frame (f : Frame) : (frameResponse f).frame = f := slice_blobOf_frame f

theorem blobOf_getElem_of_length_le {bs : List Byte} {n : Nat} (hbs : bs.length = n) (i : Fin 72) (h : n ≤ i.1) :
    (blobOf bs)[i] = 0 := by
  rw [Fin.getElem_fin, blobOf_getElem bs i.1 i.2, List.getD_eq_default _ _ (by omega)]

/-- What a FRAME response with a record the block wrote holds; the statements on COSPDO and COSNMT add the operands. -/
theorem finishFrame_mkFrame (e : Endian) (raw : Word) (len : Byte) (buf : Payload) (s : State) :
    ∃ r : Response, finishFrame (mkFrame e raw len buf) s = .next (s.respond r) ∧
      r = { kind := 0x02, blobLen := 16, blob := r.blob } ∧ (∀ i : Fin 72, 16 ≤ i.1 → r.blob[i] = 0) ∧
      r.frame = mkFrame e raw len buf :=
  ⟨frameResponse _, finishFrame_eq _ s, rfl, blobOf_getElem_of_length_le Vector.length_toList,
    frameResponse_frame _⟩

theorem toNat_setWidth_byte (b : Byte) : (b.setWidth 32).toNat = b.toNat := by
  have hb := b.isLt
  rw [BitVec.toNat_setWidth]
  omega

theorem validNode_iff {node : Byte} : validNode node = true ↔ node.toNat ≤ 0x7F := by simp [validNode]

theorem validChannel_iff {channel : Byte} : validChannel channel = true ↔ 1 ≤ channel.toNat ∧ channel.toNat ≤ 4 := by
  simp [validChannel]

/-- The node operand fills the low eight bits, which are clear in the channel's base, so OR is addition (R77). -/
theorem pdoIdentifier_toNat {channel node : Byte} (hch : channel.toNat ≤ 4) :
    (pdoIdentifier channel node).toNat = 0x100 + channel.toNat * 0x100 + node.toNat := by
  have hbase : ((channel.setWidth 32 + 1 : Word) <<< 8).toNat = (channel.toNat + 1) <<< 8 := by
    have hone : (1 : Word).toNat = 1 := rfl
    rw [BitVec.toNat_shiftLeft, BitVec.toNat_add, toNat_setWidth_byte, hone, Nat.shiftLeft_eq, Nat.shiftLeft_eq]
    omega
  have hlow : node.toNat < 2 ^ 8 := node.isLt
  rw [pdoIdentifier, BitVec.toNat_or, hbase, toNat_setWidth_byte, ← Nat.shiftLeft_add_eq_or_of_lt hlow, Nat.shiftLeft_eq]
  omega

theorem nmtIdentifier_toNat (node : Byte) : (nmtIdentifier node).toNat = 0x700 + node.toNat := by
  have hlow : node.toNat < 2 ^ 8 := node.isLt
  rw [nmtIdentifier, BitVec.toNat_or, toNat_setWidth_byte]
  exact (Nat.shiftLeft_add_eq_or_of_lt hlow 7).symm

theorem execCospdo_of_accepted {node channel len : Byte} (data : Payload) (s : State) (hnode : node.toNat ≤ 0x7F)
    (hch : 1 ≤ channel.toNat ∧ channel.toNat ≤ 4) (hlen : len.toNat ≤ 8) :
    execCospdo node channel len data s =
      finishFrame (mkFrame s.cfg.endian (pdoIdentifier channel node) len (payloadSlice len data)) s := by
  have hlen' : ¬ len.toNat > 8 := by omega
  simp only [execCospdo, validChannel_iff.mpr hch, validNode_iff.mpr hnode, if_neg hlen', Bool.not_true,
    Bool.false_eq_true, if_false]

theorem execCosnmt_of_accepted {node cmd : Byte} {c : NmtCommand} (s : State) (hnode : node.toNat ≤ 0x7F)
    (hcmd : nmtCommandOf cmd = some c) :
    execCosnmt node cmd s =
      finishFrame (mkFrame s.cfg.endian (nmtIdentifier node) 1 ((zeroBytes 8).set 0 c.payloadByte)) s := by
  simp only [execCosnmt, hcmd, validNode_iff.mpr hnode, Bool.not_true, Bool.false_eq_true, if_false]

/-- The table of R79: each listed command code has the payload byte of its row. -/
theorem nmtCommandOf_of_row {cmd payload : Byte}
    (h : (cmd = 0 ∧ payload = 0x01) ∨ (cmd = 1 ∧ payload = 0x02) ∨ (cmd = 2 ∧ payload = 0x80) ∨
      (cmd = 3 ∧ payload = 0x81) ∨ (cmd = 4 ∧ payload = 0x82)) :
    ∃ c, nmtCommandOf cmd = some c ∧ c.payloadByte = payload := by
  obtain ⟨rfl, rfl⟩ | ⟨rfl, rfl⟩ | ⟨rfl, rfl⟩ | ⟨rfl, rfl⟩ | ⟨rfl, rfl⟩ := h
  exacts [⟨.goToOperational, rfl, rfl⟩, ⟨.goToStopped, rfl, rfl⟩, ⟨.goToPreOperational, rfl, rfl⟩,
    ⟨.resetNode, rfl, rfl⟩, ⟨.resetCommunication, rfl, rfl⟩]

/-- Settles O27. -/
theorem cospdoBuildsThePdoFrame : Obligations.CospdoBuildsThePdoFrame := by
  intro node channel len data s hnode hch1 hch4 hlen
  obtain ⟨r, hexec, hr, hblob, hframe⟩ := finishFrame_mkFrame s.cfg.endian (pdoIdentifier channel node) len
    (payloadSlice len data) s
  refine ⟨r, (execCospdo_of_accepted data s hnode ⟨hch1, hch4⟩ hlen).trans hexec, hr, hblob, ?_⟩
  rw [hframe, rawId_mkFrame, dlen_mkFrame]
  exact ⟨pdoIdentifier_toNat hch4, rfl, mkFrame_getElem_padding _ _ _ _ 0 (by decide),
    mkFrame_getElem_padding _ _ _ _ 1 (by decide), mkFrame_getElem_padding _ _ _ _ 2 (by decide),
    fun i => by rw [mkFrame_getElem_data _ _ _ _ i.1 i.2, payloadSlice_getElem _ _ _ i.2]; rfl⟩

/-- Settles O30. -/
theorem cosnmtBuildsTheCommandFrame : Obligations.CosnmtBuildsTheCommandFrame := by
  intro node cmd payload s hnode hrow
  obtain ⟨c, hcmd, rfl⟩ := nmtCommandOf_of_row hrow
  obtain ⟨r, hexec, hr, hblob, hframe⟩ := finishFrame_mkFrame s.cfg.endian (nmtIdentifier node) 1
    ((zeroBytes 8).set 0 c.payloadByte) s
  refine ⟨r, (execCosnmt_of_accepted s hnode hcmd).trans hexec, hr, hblob, ?_⟩
  rw [hframe, rawId_mkFrame, dlen_mkFrame]
  refine ⟨nmtIdentifier_toNat node, rfl, mkFrame_getElem_padding _ _ _ _ 0 (by decide),
    mkFrame_getElem_padding _ _ _ _ 1 (by decide), mkFrame_getElem_padding _ _ _ _ 2 (by decide),
    mkFrame_getElem_data _ _ _ _ 0 (by decide), fun i => ?_⟩
  have hi : 9 + i.1 = 8 + (i.1 + 1) := by omega
  simp only [hi]
  rw [mkFrame_getElem_data _ _ _ _ (i.1 + 1) (by omega), Vector.getElem_set_ne _ _ (by omega), zeroBytes,
    Vector.getElem_replicate]

/-! ## The NMT state message (R78, R144, R145) -/

theorem nmtStateOf_code (b : Byte) :
    (nmtStateOf b).code = if b = 0x04 then 1 else if b = 0x05 then 2 else if b = 0x7F then 3 else 0 := by
  unfold nmtStateOf
  split_ifs <;> rfl

theorem execClsNmtState_of_state (node : NodeAddr) {len : Byte} (state : Byte) {s : State}
    (h : len ≠ 0 ∨ s.cfg.nmtEmptyPolicy = .readBuffer) :
    execClsNmtState node len state s =
      .next (s.respond { kind := 0x12, value32 := 0x700, node := node.setWidth 8, len, nmtRaw := state,
                         nmtState := (nmtStateOf state).code }) := by
  have hpolicy : ¬ (len = 0 ∧ s.cfg.nmtEmptyPolicy = .fault) := by
    rintro ⟨hlen, hfault⟩
    obtain hne | hread := h
    · exact hne hlen
    · rw [hread] at hfault
      cases hfault
  exact if_neg hpolicy

theorem execClsNmtState_of_fault (node : NodeAddr) {len : Byte} (state : Byte) {s : State}
    (h : len = 0 ∧ s.cfg.nmtEmptyPolicy = .fault) :
    execClsNmtState node len state s = .next (s.respond { status := 0x0B, value32 := 0x700 }) := if_pos h

/-- The masked identifier selects the row: bits 11:7 are those the mask 0xF80 keeps (R76, R141). -/
theorem classCode_and_funcMask (id : Word) : classCode (id &&& 0xF80) = classCode id := by
  have hmask : (0xF80 : Word).extractLsb' 7 5 = BitVec.allOnes 5 := by decide
  rw [classCode, BitVec.extractLsb'_and, hmask, BitVec.and_allOnes, classCode]

theorem classCode_of_functionCode {id fc : Word} (h : id &&& 0xF80 = fc) : classCode id = classCode fc := by
  rw [← h, classCode_and_funcMask]

theorem nodeOf_setWidth (id : Word) : (nodeOf id).setWidth 8 = (id &&& 0x7F).setWidth 8 := by
  apply BitVec.eq_of_toNat_eq
  have hmask : id.toNat &&& 0x7F = id.toNat % 2 ^ 7 := Nat.and_two_pow_sub_one_eq_mod id.toNat 7
  rw [BitVec.toNat_setWidth, BitVec.toNat_setWidth, nodeOf, BitVec.extractLsb'_toNat, Nat.shiftRight_zero, ← hmask]
  rfl

theorem fdata_getElem (f : Frame) (i : Nat) (h : i < 8) : (fdata f)[i] = f[8 + i] :=
  slice_getElem f 8 8 (by decide) i h

/-- Function code 0x700 selects CLS_NMT_STATE with buffer byte 0 (R144). -/
theorem exec_cocls_of_nmtState {f : Frame} {s : State} (hlen : (dlen f).toNat ≤ 8)
    (hfc : numericId (rawId s.cfg.endian f) &&& 0xF80 = 0x700) :
    exec (.cocls f) s = execClsNmtState (nodeOf (numericId (rawId s.cfg.endian f))) (dlen f) f[8] s := by
  have hcode : classCode (numericId (rawId s.cfg.endian f)) = 14 := classCode_of_functionCode hfc
  rw [exec_cocls_of_valid s hlen, hcode, ← fdata_getElem f 0 (by decide)]
  rfl

/-- Settles O36. -/
theorem illegalRequestNamesTheSelector : Obligations.IllegalRequestNamesTheSelector := fun _ _ => rfl

/-- Settles O38, by the policy at length 0. -/
theorem nmtStateRowAnswers : Obligations.NmtStateRowAnswers := by
  intro node len state s
  refine ⟨fun h => ?_, fun hlen hfault => execClsNmtState_of_fault node state ⟨hlen, hfault⟩⟩
  rw [← nmtStateOf_code]
  exact execClsNmtState_of_state node state h

/-- Settles O22: the frame selects the row CLS_NMT_STATE, which answers as O38 says. -/
theorem coclsAnswersNmtState : Obligations.CoclsAnswersNmtState := by
  intro f s hlen id hfc
  rw [exec_cocls_of_nmtState hlen hfc, ← nodeOf_setWidth]
  exact nmtStateRowAnswers (nodeOf id) (dlen f) f[8] s

end Sys2Proof.Machine
end

section
/-!
PROOFS. The envelopes of 30_encoding.md R73 and R74, field by field, and the invariant that every waiting response is legal.
-/

namespace Sys2Proof.Machine

/-! ## A record that begins with fields of given sizes and values -/

/-- The bytes of fields laid out one after the other, each a size and a value. -/
def fieldsBytes (e : Endian) (fields : List (Nat × Nat)) : List Byte := fields.flatMap fun p => memBytes e p.1 p.2

/-- The offset at which field `k` begins. -/
def fieldOffset (fields : List (Nat × Nat)) (k : Nat) : Nat := ((fields.take k).map Prod.fst).sum

theorem fieldsBytes_length (e : Endian) (fields : List (Nat × Nat)) :
    (fieldsBytes e fields).length = (fields.map Prod.fst).sum := by
  simp [fieldsBytes, List.length_flatMap]

theorem fieldsBytes_split (e : Endian) {fields : List (Nat × Nat)} {k n w : Nat} (hk : fields[k]? = some (n, w)) :
    fieldsBytes e fields =
      fieldsBytes e (fields.take k) ++ memBytes e n w ++ fieldsBytes e (fields.drop (k + 1)) := by
  obtain ⟨hlt, hget⟩ := List.getElem?_eq_some_iff.mp hk
  calc fieldsBytes e fields
      = fieldsBytes e (fields.take k ++ (n, w) :: fields.drop (k + 1)) := by
        rw [← hget, ← List.drop_eq_getElem_cons hlt, List.take_append_drop]
    _ = _ := by simp only [fieldsBytes, List.flatMap_append, List.flatMap_cons, List.append_assoc]

theorem memRead_fieldsBytes {m : Nat} {e : Endian} {v : Bytes m} {fields : List (Nat × Nat)} {post : List Byte}
    (hv : v.toList = fieldsBytes e fields ++ post) {k off n w : Nat} (h : off + n ≤ m)
    (hk : fields[k]? = some (n, w)) (hoff : fieldOffset fields k = off) (hw : w < 256 ^ n) :
    memRead e v off n h = w := by
  subst hoff
  refine memRead_middle e v _ _ _ h (fieldsBytes e (fields.take k)) (fieldsBytes e (fields.drop (k + 1)) ++ post) ?_
    (fieldsBytes_length e _) hw
  rw [hv, fieldsBytes_split e hk, List.append_assoc _ _ post]

theorem blobOf_toList {bs : List Byte} (h : bs.length ≤ 72) :
    (blobOf bs).toList = bs ++ List.replicate (72 - bs.length) 0 := by
  refine List.ext_getElem (by simp; omega) fun i hi hi' => ?_
  have hi72 : i < 72 := by simpa using hi
  rw [Vector.getElem_toList, blobOf_getElem bs i hi72, List.getD_eq_getElem?_getD, List.getElem_append]
  split_ifs with hbs
  · simp [hbs]
  · simp [hbs]

/-- The ENVELOPE response to fields followed by the frame template: every field, the template and the zeros past it. -/
theorem finishEnvelope_fields (e : Endian) (fields : List (Nat × Nat)) (f : Frame) (s : State) {size : Nat}
    (hsize : (fields.map Prod.fst).sum = size) (hfit : size + 16 ≤ 72) (hlt : ∀ p ∈ fields, p.2 < 256 ^ p.1) :
    ∃ r : Response, finishEnvelope (fieldsBytes e fields ++ f.toList) s = .next (s.respond r) ∧
      r = { kind := 0x03, blobLen := BitVec.ofNat 32 (size + 16), blob := r.blob } ∧
      (∀ (k off n w : Nat) (h : off + n ≤ 72), fields[k]? = some (n, w) → fieldOffset fields k = off →
        memRead e r.blob off n h = w) ∧
      (∀ i : Fin 16, r.blob[size + i.1] = f[i]) ∧ ∀ i : Fin 72, size + 16 ≤ i.1 → r.blob[i] = 0 := by
  have hlength : (fieldsBytes e fields ++ f.toList).length = size + 16 := by
    rw [List.length_append, fieldsBytes_length, hsize, Vector.length_toList]
  have hblob := blobOf_toList (hlength.trans_le hfit)
  refine ⟨_, finishEnvelope_eq _ s, by rw [hlength], fun k off n w h hk hoff => ?_, fun i => ?_,
    blobOf_getElem_of_length_le hlength⟩
  · exact memRead_fieldsBytes (hblob.trans (List.append_assoc ..)) h hk hoff
      (hlt _ (List.mem_of_getElem? hk))
  · have htemplate : slice (blobOf (fieldsBytes e fields ++ f.toList)) size 16 hfit = f :=
      slice_middle _ size hfit f (fieldsBytes e fields) _ hblob ((fieldsBytes_length e fields).trans hsize)
    rw [← slice_getElem _ size 16 hfit i.1 i.2, htemplate]
    rfl

/-! ## The two envelope layouts (R73, R74, R121 to R124) -/

/-- The fields of the DOC_PACKED envelope before the template (R73). -/
def docPackedFields (c : Config) (id32 flags : Word) (us : DWord) : List (Nat × Nat) :=
  [(4, 1), (4, flags.toNat), (4, 0), (4, (firstInterval c.bcmIval1 us).1), (4, (firstInterval c.bcmIval1 us).2),
    (4, intervalSec us), (4, intervalUsec us), (4, id32.toNat), (4, 1)]

/-- The fields of the LP64 envelope before the template, the padding at offset 12 among them (R74). -/
def lp64Fields (c : Config) (id32 flags : Word) (us : DWord) : List (Nat × Nat) :=
  [(4, 1), (4, flags.toNat), (4, 0), (4, 0), (8, (firstInterval c.bcmIval1 us).1), (8, (firstInterval c.bcmIval1 us).2),
    (8, intervalSec us), (8, intervalUsec us), (4, id32.toNat), (4, 1)]

section
variable (c : Config) (id32 flags : Word) (us : DWord)

theorem envelopeDocPacked_eq (f : Frame) :
    envelopeDocPacked c id32 flags us f = fieldsBytes c.endian (docPackedFields c id32 flags us) ++ f.toList := by
  simp [envelopeDocPacked, fieldsBytes, docPackedFields]

theorem envelopeLp64_eq (f : Frame) :
    envelopeLp64 c id32 flags us f = fieldsBytes c.endian (lp64Fields c id32 flags us) ++ f.toList := by
  have hpadding : memBytes c.endian 4 0 = [0, 0, 0, 0] := by cases c.endian <;> rfl
  simp [envelopeLp64, fieldsBytes, lp64Fields, hpadding]

theorem firstInterval_eq (p : BcmIval1) : firstInterval p us =
    (if p = .zero then 0 else us.toNat / 1000000, if p = .zero then 0 else us.toNat % 1000000) := by
  cases p <;> rfl

theorem intervalUsec_lt : intervalUsec us < 1000000 := Nat.mod_lt _ (by decide)

theorem firstInterval_le : (firstInterval c.bcmIval1 us).1 ≤ intervalSec us ∧
    (firstInterval c.bcmIval1 us).2 ≤ intervalUsec us := by
  cases c.bcmIval1 <;> simp [firstInterval]

/-- Every value of the DOC_PACKED envelope fits its field when the seconds are in range (R126). -/
theorem docPackedFields_lt (hsec : intervalSec us ≤ 0x7FFFFFFF) :
    ∀ p ∈ docPackedFields c id32 flags us, p.2 < 256 ^ p.1 := by
  have husec := intervalUsec_lt us
  obtain ⟨hfirst, hsecond⟩ := firstInterval_le c us
  have hid := id32.isLt
  have hflags := flags.isLt
  simp only [docPackedFields, List.forall_mem_cons]
  refine ⟨?_, ?_, ?_, ?_, ?_, ?_, ?_, ?_, ?_, List.forall_mem_nil _⟩ <;> omega

/-- Every value of the LP64 envelope fits its field, whatever the interval. -/
theorem lp64Fields_lt : ∀ p ∈ lp64Fields c id32 flags us, p.2 < 256 ^ p.1 := by
  have husec := intervalUsec_lt us
  have hsec : intervalSec us < 2 ^ 64 := (Nat.div_le_self _ _).trans_lt us.isLt
  obtain ⟨hfirst, hsecond⟩ := firstInterval_le c us
  have hid := id32.isLt
  have hflags := flags.isLt
  simp only [lp64Fields, List.forall_mem_cons]
  refine ⟨?_, ?_, ?_, ?_, ?_, ?_, ?_, ?_, ?_, ?_, List.forall_mem_nil _⟩ <;> omega

end

theorem envelopeFlags_toNat (setTimer startTimer : Bool) :
    (envelopeFlags setTimer startTimer).toNat = (if setTimer then 1 else 0) + (if startTimer then 2 else 0) := by
  cases setTimer <;> cases startTimer <;> rfl

section
variable (id32 : Word) (us : DWord) (setTimer startTimer : Bool) (f : Frame) (s : State)

theorem execBcmsetup_docPacked (hlayout : s.cfg.bcmLayout = .docPacked) (hlen : (dlen f).toNat ≤ 8)
    (hsec : intervalSec us ≤ 0x7FFFFFFF) :
    execBcmsetup id32 us setTimer startTimer f s =
      finishEnvelope (fieldsBytes s.cfg.endian
        (docPackedFields s.cfg id32 (envelopeFlags setTimer startTimer) us) ++ f.toList) s := by
  have hlen' : ¬ (dlen f).toNat > 8 := by omega
  have hsec' : ¬ intervalSec us > 0x7FFFFFFF := by omega
  simp only [execBcmsetup, if_neg hlen', hlayout, if_neg hsec', envelopeDocPacked_eq]

theorem execBcmsetup_of_interval (hlayout : s.cfg.bcmLayout = .docPacked) (hlen : (dlen f).toNat ≤ 8)
    (hsec : 0x7FFFFFFF < intervalSec us) :
    execBcmsetup id32 us setTimer startTimer f s =
      raise .intervalTooLarge (BitVec.ofNat 32 (min (intervalSec us) 0xFFFFFFFF)) s := by
  have hlen' : ¬ (dlen f).toNat > 8 := by omega
  simp only [execBcmsetup, if_neg hlen', hlayout, if_pos hsec]

theorem execBcmsetup_lp64 (hlayout : s.cfg.bcmLayout = .lp64) (hlen : (dlen f).toNat ≤ 8) :
    execBcmsetup id32 us setTimer startTimer f s =
      finishEnvelope (fieldsBytes s.cfg.endian
        (lp64Fields s.cfg id32 (envelopeFlags setTimer startTimer) us) ++ f.toList) s := by
  have hlen' : ¬ (dlen f).toNat > 8 := by omega
  simp only [execBcmsetup, if_neg hlen', hlayout, envelopeLp64_eq]

end

/-- Settles O16: the fields of the envelope in their order, then the template. -/
theorem bcmsetupWritesDocPackedEnvelope : Obligations.BcmsetupWritesDocPackedEnvelope := by
  intro id32 us setTimer startTimer f s hlayout hlen hsec
  obtain ⟨r, hexec, hr, hfield, htemplate, htail⟩ := finishEnvelope_fields s.cfg.endian
    (docPackedFields s.cfg id32 (envelopeFlags setTimer startTimer) us) f s (size := 36) rfl (by decide)
    (docPackedFields_lt s.cfg id32 _ us hsec)
  refine ⟨r, (execBcmsetup_docPacked id32 us setTimer startTimer f s hlayout hlen hsec).trans hexec, hr,
    hfield 0 0 4 _ _ rfl rfl, (hfield 1 4 4 _ _ rfl rfl).trans (envelopeFlags_toNat ..),
    hfield 2 8 4 _ _ rfl rfl,
    (hfield 3 12 4 _ _ rfl rfl).trans (congrArg Prod.fst (firstInterval_eq us s.cfg.bcmIval1)),
    (hfield 4 16 4 _ _ rfl rfl).trans (congrArg Prod.snd (firstInterval_eq us s.cfg.bcmIval1)),
    hfield 5 20 4 _ _ rfl rfl, hfield 6 24 4 _ _ rfl rfl, hfield 7 28 4 _ _ rfl rfl,
    hfield 8 32 4 _ _ rfl rfl, htemplate, htail⟩

/-- Settles O17: the fields of the envelope in their order, then the template. -/
theorem bcmsetupWritesLp64Envelope : Obligations.BcmsetupWritesLp64Envelope := by
  intro id32 us setTimer startTimer f s hlayout hlen
  obtain ⟨r, hexec, hr, hfield, htemplate, -⟩ := finishEnvelope_fields s.cfg.endian
    (lp64Fields s.cfg id32 (envelopeFlags setTimer startTimer) us) f s (size := 56) rfl (by decide)
    (lp64Fields_lt s.cfg id32 _ us)
  refine ⟨r, (execBcmsetup_lp64 id32 us setTimer startTimer f s hlayout hlen).trans hexec, hr,
    hfield 0 0 4 _ _ rfl rfl, (hfield 1 4 4 _ _ rfl rfl).trans (envelopeFlags_toNat ..),
    hfield 2 8 4 _ _ rfl rfl, hfield 3 12 4 _ _ rfl rfl,
    (hfield 4 16 8 _ _ rfl rfl).trans (congrArg Prod.fst (firstInterval_eq us s.cfg.bcmIval1)),
    (hfield 5 24 8 _ _ rfl rfl).trans (congrArg Prod.snd (firstInterval_eq us s.cfg.bcmIval1)),
    hfield 6 32 8 _ _ rfl rfl, hfield 7 40 8 _ _ rfl rfl, hfield 8 48 4 _ _ rfl rfl,
    hfield 9 52 4 _ _ rfl rfl, htemplate⟩

/-! ## Every answer to a request is legal (R63 to R67, R180) -/

/-- The outcome adds one response, which is legal for the parameters. -/
def AnswersLegally (s : State) (o : Result) : Prop := ∃ r : Response, r.legal s.cfg ∧ o = .next (s.respond r)

section
variable (s : State)

theorem raise_answersLegally {status : Status} (value : Word) (h : status ≠ .ok) :
    AnswersLegally s (raise status value s) := by
  have hcode : 1 ≤ status.code.toNat ∧ status.code.toNat ≤ 0x0B := by
    revert h
    cases status <;> decide
  exact ⟨{ status := status.code, value32 := value }, .inl ⟨hcode, rfl⟩, rfl⟩

theorem finishFrame_answersLegally (e : Endian) (raw : Word) {len : Byte} (buf : Payload) (hlen : len.toNat ≤ 8) :
    AnswersLegally s (finishFrame (mkFrame e raw len buf) s) := by
  obtain ⟨r, hexec, hr, hblob, hframe⟩ := finishFrame_mkFrame e raw len buf s
  have hpadding : ∀ i : Fin 16, 5 ≤ i.1 → i.1 < 8 → r.frame[i] = 0 := fun i h5 h8 => by
    have hpad := mkFrame_getElem_padding e raw len buf (i.1 - 5) (by omega)
    simp only [Nat.add_sub_cancel' h5] at hpad
    rw [hframe]
    exact hpad
  have hdlen : (dlen r.frame).toNat ≤ 8 := by rwa [hframe, dlen_mkFrame]
  exact ⟨r, .inr (.inr (.inl ⟨hr, hdlen, hpadding, hblob⟩)), hexec⟩

theorem finishEnvelope_answersLegally {bs : List Byte} (h : bs.length = envelopeSize s.cfg.bcmLayout) :
    AnswersLegally s (finishEnvelope bs s) := by
  have henvelope : Response.isEnvelope s.cfg.bcmLayout
      { kind := 0x03, blobLen := BitVec.ofNat 32 bs.length, blob := blobOf bs } :=
    ⟨by rw [h], fun i => blobOf_getElem_of_length_le h i⟩
  exact ⟨_, .inr (.inr (.inr (.inl henvelope))), finishEnvelope_eq bs s⟩

theorem execFenc_answersLegally (id32 : Word) (len : Byte) (data : Payload) (rtr err : Bool) :
    AnswersLegally s (execFenc id32 len data rtr err s) := by
  unfold execFenc
  split_ifs with hlen hid
  · exact raise_answersLegally s _ (by decide)
  · exact raise_answersLegally s _ (by decide)
  · exact finishFrame_answersLegally s _ _ _ (by omega)

theorem numericId_le (raw : Word) : (numericId raw).toNat ≤ 0x1FFFFFFF := by
  unfold numericId
  split_ifs
  · exact (BitVec.toNat_and ..).trans_le Nat.and_le_right
  · exact ((BitVec.toNat_and ..).trans_le Nat.and_le_right).trans (by decide)

theorem oflagsByte_le (raw : Word) : (oflagsByte raw).toNat ≤ 7 := by
  unfold oflagsByte
  cases extFlag raw <;> cases rtrFlagOf raw <;> cases errFlagOf raw <;> decide

theorem execFdec_answersLegally (f : Frame) : AnswersLegally s (execFdec f s) := by
  unfold execFdec
  split_ifs with hlen
  · exact raise_answersLegally s _ (by decide)
  · have hfields : Response.isFields
        { kind := 0x01, value32 := numericId (rawId s.cfg.endian f), oflags := oflagsByte (rawId s.cfg.endian f),
          len := dlen f, data := payloadSlice (dlen f) (fdata f) } := by
      refine ⟨rfl, oflagsByte_le _, by simpa using hlen, numericId_le _, fun i hi => ?_⟩
      exact (payloadSlice_getElem _ _ i.1 i.2).trans (if_neg (by simpa using hi))
    exact ⟨_, .inr (.inl hfields), rfl⟩

theorem exec_bcmsetup_answersLegally (id32 : Word) (us : DWord) (setTimer startTimer : Bool) (f : Frame) :
    AnswersLegally s (exec (.bcmsetup id32 us setTimer startTimer f) s) := by
  rcases Nat.lt_or_ge 8 (dlen f).toNat with hlen | hlen
  · rw [exec_bcmsetup_of_malformed id32 us setTimer startTimer s hlen]
    exact raise_answersLegally s _ (by decide)
  · rw [exec]
    cases hlayout : s.cfg.bcmLayout with
    | docPacked =>
      rcases Nat.lt_or_ge 0x7FFFFFFF (intervalSec us) with hsec | hsec
      · rw [execBcmsetup_of_interval id32 us setTimer startTimer f s hlayout hlen hsec]
        exact raise_answersLegally s _ (by decide)
      · rw [execBcmsetup_docPacked id32 us setTimer startTimer f s hlayout hlen hsec]
        exact finishEnvelope_answersLegally s (by simp [fieldsBytes_length, docPackedFields, envelopeSize, hlayout])
    | lp64 =>
      rw [execBcmsetup_lp64 id32 us setTimer startTimer f s hlayout hlen]
      exact finishEnvelope_answersLegally s (by simp [fieldsBytes_length, lp64Fields, envelopeSize, hlayout])

theorem execCospdo_answersLegally (node channel len : Byte) (data : Payload) :
    AnswersLegally s (execCospdo node channel len data s) := by
  unfold execCospdo
  split_ifs with hchannel hnode hlen
  · exact raise_answersLegally s _ (by decide)
  · exact raise_answersLegally s _ (by decide)
  · exact raise_answersLegally s _ (by decide)
  · exact finishFrame_answersLegally s _ _ _ (by omega)

theorem execCosnmt_answersLegally (node cmd : Byte) : AnswersLegally s (execCosnmt node cmd s) := by
  unfold execCosnmt
  cases nmtCommandOf cmd with
  | none => exact raise_answersLegally s _ (by decide)
  | some c =>
    dsimp only
    split_ifs with hnode
    · exact raise_answersLegally s _ (by decide)
    · exact finishFrame_answersLegally s _ _ _ (by decide)

/-! ### The classification rows -/

theorem toNat_setWidth_node (node : NodeAddr) : (node.setWidth 8).toNat ≤ 0x7F := by
  have hnode := node.isLt
  rw [BitVec.toNat_setWidth]
  omega

section
variable (node : NodeAddr) {len : Byte} (hlen : len.toNat ≤ 8)
include hlen

theorem execClsSync_answersLegally : AnswersLegally s (execClsSync node len s) := by
  have hsync : Response.isMsgSync { kind := 0x10, value32 := 0x080, node := node.setWidth 8, len } :=
    ⟨rfl, toNat_setWidth_node node, hlen⟩
  exact ⟨_, .inr (.inr (.inr (.inr (.inl hsync)))), rfl⟩

/-- The function codes of the four channels are 0x080 + channel · 0x100 (R143). -/
theorem finishPdo_answersLegally {code : ClassCode} (data : Payload) (hcode : code ∈ [(3 : ClassCode), 5, 7, 9]) :
    AnswersLegally s (finishPdo code node len data s) := by
  have hchannel : (1 ≤ (pdoChannel code).toNat ∧ (pdoChannel code).toNat ≤ 4) ∧
      (functionCode code).toNat = 0x080 + (pdoChannel code).toNat * 0x100 := by
    revert code
    decide
  have hpdo : Response.isMsgPdo { kind := 0x11, value32 := functionCode code, channel := pdoChannel code,
                                  node := node.setWidth 8, len, data } :=
    ⟨rfl, hchannel.1, hchannel.2, toNat_setWidth_node node, hlen⟩
  exact ⟨_, .inr (.inr (.inr (.inr (.inr (.inl hpdo))))), finishPdo_eq ..⟩

theorem execClsNmtState_answersLegally (state : Byte) : AnswersLegally s (execClsNmtState node len state s) := by
  by_cases hempty : len = 0 ∧ s.cfg.nmtEmptyPolicy = .fault
  · rw [execClsNmtState, if_pos hempty]
    exact raise_answersLegally s _ (by decide)
  · have hmsg : Response.isMsgNmtState { kind := 0x12, value32 := 0x700, node := node.setWidth 8, len, nmtRaw := state,
                                         nmtState := (nmtStateOf state).code } :=
      ⟨rfl, rfl, toNat_setWidth_node node, hlen⟩
    exact ⟨_, .inr (.inr (.inr (.inr (.inr (.inr hmsg))))), if_neg hempty⟩

theorem exec_classRow_answersLegally (code : ClassCode) (buf : Payload) :
    AnswersLegally s (exec (classRow code node len buf) s) :=
  classRow_cases (motive := fun i => AnswersLegally s (exec i s)) code node len buf
    (execClsSync_answersLegally s node hlen) (finishPdo_answersLegally s node hlen buf (by decide))
    (finishPdo_answersLegally s node hlen buf (by decide)) (finishPdo_answersLegally s node hlen buf (by decide))
    (finishPdo_answersLegally s node hlen buf (by decide)) (raise_answersLegally s _ (by decide))
    (execClsNmtState_answersLegally s node hlen buf[0]) fun _ => raise_answersLegally s _ (by decide)

end

theorem exec_cocls_answersLegally (f : Frame) : AnswersLegally s (exec (.cocls f) s) := by
  rcases Nat.lt_or_ge 8 (dlen f).toNat with hlen | hlen
  · rw [exec_cocls_of_malformed s hlen]
    exact raise_answersLegally s _ (by decide)
  · rw [exec_cocls_of_valid s hlen]
    exact exec_classRow_answersLegally s _ hlen _ _

/-- Whatever record is presented, its answer is legal; a row term that no frame decodes to is none of its instructions. -/
theorem exec_decodeRequest_answersLegally (b : RequestRecord) : AnswersLegally s (exec (decodeRequest b) s) := by
  rcases decodeFields_cases (Request.ofBytes b) with hillegal | ⟨m, hoperation⟩
  · rw [decodeRequest, hillegal]
    exact raise_answersLegally s _ (by decide)
  · rw [decodeRequest, hoperation]
    cases m with
    | fenc => exact execFenc_answersLegally s ..
    | fdec => exact execFdec_answersLegally s _
    | bcmsetup => exact exec_bcmsetup_answersLegally s ..
    | cocls => exact exec_cocls_answersLegally s _
    | cospdo => exact execCospdo_answersLegally s ..
    | cosnmt => exact execCosnmt_answersLegally s ..
    | cossdo => exact raise_answersLegally s _ (by decide)

end

theorem State.Inv.respond {s : State} {r : Response} (hs : s.Inv) (hr : r.legal s.cfg) : (s.respond r).Inv := by
  intro b hb
  obtain hold | hnew := List.mem_append.mp hb
  · exact hs b hold
  · rw [List.mem_singleton.mp hnew, Response.ofBytes_toBytes]
    exact hr

/-- Settles O48: the step adds the legal answer of the oldest request to the waiting responses. -/
theorem stepKeepsResponsesLegal : Obligations.StepKeepsResponsesLegal := by
  intro s t hs hstep
  cases hreq : s.requests with
  | nil =>
    rw [step_of_requests_nil hreq] at hstep
    cases hstep
    exact hs
  | cons b rest =>
    have hrest : State.Inv { s with requests := rest } := hs
    obtain ⟨r, hlegal, hanswer⟩ := exec_decodeRequest_answersLegally { s with requests := rest } b
    rw [step_of_requests_cons hreq, hanswer] at hstep
    cases hstep
    exact hrest.respond hlegal

end Sys2Proof.Machine
end

section
/-!
PROOFS. The assembly form of 30_encoding.md R80 and R83: the record of a line, and what the decoder reads from it.
-/

namespace Sys2Proof.Machine

/-- A line of a mnemonic, with data that fits and a frame operand that exists, assembles to the record of its keys. -/
theorem assemble_op {responses : List ResponseRecord} (m : AsmOp) {keys : AsmKeys} {f : Frame}
    (hdata : (keys.data.getD []).length ≤ 8) (hf : asmFrameBytes responses keys.frame = some f) :
    assemble responses (.op m keys) = some (keysRequest m keys f).toBytes :=
  assemble_eq_some.mpr ⟨hdata, f, hf, rfl⟩

/-- The keys set no reserved bit (R80). -/
theorem keysRequest_reservedSet (m : AsmOp) (keys : AsmKeys) (f : Frame) :
    (keysRequest m keys f).reservedSet = false :=
  Request.reservedSet_eq_false_iff.mpr ⟨flagsByte_reserved .., rfl, rfl⟩

theorem decodeRequest_keysRequest (m : AsmOp) (keys : AsmKeys) (f : Frame) :
    decodeRequest (keysRequest m keys f).toBytes = m.instr (keysRequest m keys f) := by
  rw [decodeRequest_toBytes, decodeFields_of_selector m rfl (keysRequest_reservedSet m keys f)]

theorem AsmOp.instr_ne_illegal (m : AsmOp) (q : Request) (op : Byte) : m.instr q ≠ .illegal op := by
  cases m <;> exact Instr.noConfusion

/-- The record that `Rk` names is response k of those before it, counted from 1 (R80). -/
theorem asmFrameBytes_response (before : List ResponseRecord) (r : Response) (after : List ResponseRecord) :
    asmFrameBytes (before ++ r.toBytes :: after) (some (.response (before.length + 1))) = some r.frame := by
  have hget : (before ++ r.toBytes :: after)[before.length]? = some r.toBytes := by simp
  rw [asmFrameBytes, hget, Option.map_some, Response.ofBytes_toBytes]

theorem asmFrameBytes_of_operand {responses : List ResponseRecord} {operand : Option AsmFrame} {f : Frame}
    (h : (operand = none ∧ f = Vector.replicate 16 0) ∨ operand = some (.bytes f) ∨
      ∃ (k : Nat) (q : ResponseRecord), operand = some (.response (k + 1)) ∧ responses[k]? = some q ∧
        ∀ i : Fin 16, f[i] = q[24 + i.1]) :
    asmFrameBytes responses operand = some f := by
  obtain ⟨rfl, rfl⟩ | rfl | ⟨k, q, rfl, hq, hf⟩ := h
  · rfl
  · rfl
  · have hframe : (Response.ofBytes q).frame = f := Vector.ext fun i hi => by
      rw [Response.frame, slice_getElem _ 0 16 (by decide) i hi, Response.ofBytes_blob_getElem q _ (by omega)]
      simp only [Nat.zero_add]
      exact (hf ⟨i, hi⟩).symm
    rw [asmFrameBytes, hq, Option.map_some, hframe]

theorem emptyData_eq : (Vector.ofFn fun i => ([] : List Byte).getD i.1 0 : Payload) = Vector.replicate 8 0 := by decide

/-- Settles O53: the record decodes to the operation of the line's mnemonic. -/
theorem assembledRequestsAreLegal : Obligations.AssembledRequestsAreLegal := by
  intro responses line b op hline
  obtain ⟨-, f, -, rfl⟩ := assemble_eq_some.mp hline
  rw [decodeRequest_keysRequest]
  exact AsmOp.instr_ne_illegal _ _ op

/-- Settles O54, by the line each pseudo-operation expands to. -/
theorem pseudoOperationsExpandToOneRequest : Obligations.PseudoOperationsExpandToOneRequest := by
  intro responses node
  have hline (line : AsmLine) (hdata : line.expand.2.bytes = []) (hframe : line.expand.2.frame = none) :
      ∃ b, assemble responses line = some b ∧
        decodeRequest b = line.expand.1.instr (keysRequest line.expand.1 line.expand.2 (zeroBytes 16)) :=
    ⟨_, assemble_eq_some.mpr ⟨by simp [hdata], zeroBytes 16, by rw [hframe]; rfl, rfl⟩, decodeRequest_keysRequest ..⟩
  refine ⟨?_, hline (.nmtStart node) rfl rfl, hline (.nmtReset node) rfl rfl⟩
  rw [← emptyData_eq]
  exact hline .syncFrame rfl rfl

/-- Settles O55: the line's record is that of its keys with the frame of the named response. -/
theorem frameOperandNamesAnEarlierResponse : Obligations.FrameOperandNamesAnEarlierResponse := by
  intro before r after keys hkey hdata
  have hf : asmFrameBytes (before ++ r.toBytes :: after) keys.frame = some r.frame := by
    rw [hkey, asmFrameBytes_response]
  obtain ⟨-, -, hset, hstart⟩ :=
    flagsByte_bits (keys.rtr.getD false) (keys.err.getD false) (keys.set.getD false) (keys.start.getD false)
  refine ⟨⟨_, assemble_op .fdec hdata hf, decodeRequest_keysRequest ..⟩,
    ⟨_, assemble_op .cocls hdata hf, decodeRequest_keysRequest ..⟩,
    ⟨_, assemble_op .bcmsetup hdata hf, ?_⟩⟩
  rw [decodeRequest_keysRequest, AsmOp.instr, keysRequest, hset, hstart]

/-- Settles O56: each field of the record is read back as the field that the keys set. -/
theorem assembledFieldsFollowTheKeys : Obligations.AssembledFieldsFollowTheKeys := by
  intro responses m keys f hdata hoperand
  refine ⟨_, assemble_op m hdata (asmFrameBytes_of_operand hoperand), ?_⟩
  generalize hb : (keysRequest m keys f).toBytes = b
  have hq : Request.ofBytes b = keysRequest m keys f := by rw [← hb, Request.ofBytes_toBytes]
  have hflags : b[1] = flagsByte (keys.rtr.getD false) (keys.err.getD false) (keys.set.getD false)
      (keys.start.getD false) := congrArg Request.flags hq
  obtain ⟨hrtr, herr, hset, hstart⟩ :=
    flagsByte_bits (keys.rtr.getD false) (keys.err.getD false) (keys.set.getD false) (keys.start.getD false)
  have hrsv : ¬ (Request.ofBytes b).reservedSet = true := by
    rw [hq, keysRequest_reservedSet]
    exact Bool.false_ne_true
  rw [Request.ofBytes_reservedSet_iff] at hrsv
  push Not at hrsv
  obtain ⟨-, h6, h7, h12, h13, h14, h15⟩ := hrsv
  have hid : b[11] ++ b[10] ++ b[9] ++ b[8] = keys.id.getD 0 := by rw [← Request.ofBytes_id32, hq]; rfl
  have hus : b[23] ++ b[22] ++ b[21] ++ b[20] ++ b[19] ++ b[18] ++ b[17] ++ b[16] = keys.us.getD 0 := by
    rw [← Request.ofBytes_intervalUs, hq]; rfl
  have hop : b[0] = m.selector := congrArg Request.op hq
  rw [hflags]
  refine ⟨hop.trans (by cases m <;> rfl), hrtr, herr, hset, hstart, flagsByte_reserved .., congrArg Request.len hq,
    congrArg Request.node hq, congrArg Request.channel hq, congrArg Request.cmd hq, h6, h7, hid, h12, h13, h14, h15, hus,
    fun i => ?_, fun i => ?_⟩
  · rw [← Request.ofBytes_data_getElem b i.1 i.2, hq]
    exact Vector.getElem_ofFn ..
  · rw [← Request.ofBytes_frame_getElem b i.1 i.2, hq]
    rfl

end Sys2Proof.Machine
end

section
/-!
PROOFS. The statements of 40_frame_codec.md: the frame record FENC builds and the operands it determines, the fields FDEC reads
from a record, and the interval BCMSETUP rejects.
-/

namespace Sys2Proof

/-! ## The raw identifier field, as its bytes and as identifier and flags (R41, R71, R111) -/

/-- Under BIG the value of a 4-byte field has its first byte highest. -/
theorem ofNat_memRead_big_four {m : Nat} (v : Bytes m) (off : Nat) (h : off + 4 ≤ m) :
    BitVec.ofNat 32 (memRead .big v off 4 h) = v[off] ++ v[off + 1] ++ v[off + 2] ++ v[off + 3] := by
  have hbytes : memRead .big v off 4 h = leValue [v[off + 3], v[off + 2], v[off + 1], v[off]] := by
    simp only [memRead, inOrder, slice_toList_succ]
    rfl
  rw [hbytes, show BitVec.ofNat 32 _ = _ from ofNat_leValue_cons (w := 24) ..,
    show BitVec.ofNat 24 _ = _ from ofNat_leValue_cons (w := 16) ..,
    show BitVec.ofNat 16 _ = _ from ofNat_leValue_cons (w := 8) .., ofNat_leValue_singleton]

theorem rawId_eq_append (e : Endian) (f : Frame) :
    rawId e f = match e with
      | .little => f[3] ++ f[2] ++ f[1] ++ f[0]
      | .big => f[0] ++ f[1] ++ f[2] ++ f[3] := by
  cases e with
  | little => exact ofNat_memRead_little_four f 0 _
  | big => exact ofNat_memRead_big_four f 0 _

/-- The numeric identifier is a function of the format bit and the low 29 bits (R111). -/
theorem numericId_congr {raw raw' : Word} (h31 : raw.getLsbD 31 = raw'.getLsbD 31)
    (hlow : raw &&& effMask = raw' &&& effMask) : numericId raw = numericId raw' := by
  have hsff : ∀ x : Word, x &&& sffMask = x &&& effMask &&& sffMask := fun x => by
    rw [BitVec.and_assoc, show effMask &&& sffMask = sffMask by decide]
  rw [numericId, numericId, h31, hsff raw, hsff raw', hlow]

theorem getLsbD_of_le_effMask {id : Word} {k : Nat} (h : id.toNat ≤ 0x1FFFFFFF) (hk : 29 ≤ k) : id.getLsbD k = false :=
  Nat.testBit_lt_two_pow ((show id.toNat < 2 ^ 29 by omega).trans_le (Nat.pow_le_pow_right (by decide) hk))

/-- Two records the block writes are equal only when they carry the same field, length and buffer. -/
theorem mkFrame_inj {e : Endian} {raw raw' : Word} {len len' : Byte} {buf buf' : Payload} :
    mkFrame e raw len buf = mkFrame e raw' len' buf' ↔ raw = raw' ∧ len = len' ∧ buf = buf' := by
  refine ⟨fun h => ⟨?_, ?_, ?_⟩, ?_⟩
  · simpa only [rawId_mkFrame] using congrArg (rawId e) h
  · simpa only [dlen_mkFrame] using congrArg dlen h
  · simpa only [fdata_mkFrame] using congrArg fdata h
  · rintro ⟨rfl, rfl, rfl⟩; rfl

namespace Machine

/-! ## The field FENC writes (R101, R104) -/

/-- The three flag bits of the raw field; `rawWithFlags_eq_or` ties them to what FENC writes. -/
def flagBits (ext rtr err : Bool) : Word :=
  (if ext then effFlag else 0) ||| (if rtr then rtrFlag else 0) ||| (if err then errFlag else 0)

section
variable (ext rtr err : Bool)

theorem flagBits_bits :
    (flagBits ext rtr err).getLsbD 31 = ext ∧ (flagBits ext rtr err).getLsbD 30 = rtr ∧
    (flagBits ext rtr err).getLsbD 29 = err := by
  revert ext rtr err; decide

theorem flagBits_and_effMask : flagBits ext rtr err &&& effMask = 0 := by
  revert ext rtr err; decide

theorem flagBits_low : (flagBits ext rtr err).extractLsb' 0 29 = 0 := by
  revert ext rtr err; decide

end

section
variable (id : Word) (rtr err : Bool)

theorem rawWithFlags_eq_or : rawWithFlags id rtr err = id ||| flagBits (decide (0x7FF < id.toNat)) rtr err := by
  simp only [rawWithFlags, flagBits, BitVec.or_assoc, decide_eq_true_eq, gt_iff_lt]

theorem promoted_eq_or : promoted id = id ||| flagBits (decide (0x7FF < id.toNat)) false false := by
  unfold promoted
  split_ifs with hext
  · rw [decide_eq_true hext]; rfl
  · rw [decide_eq_false hext]; exact BitVec.or_zero.symm

theorem rawWithFlags_low : (rawWithFlags id rtr err).extractLsb' 0 29 = id.extractLsb' 0 29 := by
  rw [rawWithFlags_eq_or, BitVec.extractLsb'_or, flagBits_low]
  exact BitVec.or_zero

variable {id} (h : id.toNat ≤ 0x1FFFFFFF)
include h

theorem rawWithFlags_bits :
    (rawWithFlags id rtr err).getLsbD 31 = decide (0x7FF < id.toNat) ∧ (rawWithFlags id rtr err).getLsbD 30 = rtr ∧
    (rawWithFlags id rtr err).getLsbD 29 = err := by
  obtain ⟨hext, hrtr, herr⟩ := flagBits_bits (decide (0x7FF < id.toNat)) rtr err
  simp only [rawWithFlags_eq_or, BitVec.getLsbD_or, hext, hrtr, herr, getLsbD_of_le_effMask h (k := 31) (by decide),
    getLsbD_of_le_effMask h (k := 30) (by decide), getLsbD_of_le_effMask h (k := 29) (by decide), Bool.false_or, and_self]

/-- RTR and ERR do not reach the numeric identifier, so it is that of the field with both clear. -/
theorem numericId_rawWithFlags : numericId (rawWithFlags id rtr err) = id := by
  refine (numericId_congr ?_ ?_).trans (numericId_promoted h)
  · rw [rawWithFlags_eq_or, promoted_eq_or, BitVec.getLsbD_or, BitVec.getLsbD_or, (flagBits_bits _ _ _).1,
      (flagBits_bits _ _ _).1]
  · rw [rawWithFlags_eq_or, promoted_eq_or, BitVec.and_or_distrib_right, BitVec.and_or_distrib_right,
      flagBits_and_effMask, flagBits_and_effMask]

end

theorem rawWithFlags_inj {id id' : Word} {rtr rtr' err err' : Bool} (h : id.toNat ≤ 0x1FFFFFFF)
    (h' : id'.toNat ≤ 0x1FFFFFFF) :
    rawWithFlags id rtr err = rawWithFlags id' rtr' err' ↔ id = id' ∧ rtr = rtr' ∧ err = err' := by
  constructor
  · intro heq
    obtain ⟨-, hrtr, herr⟩ := rawWithFlags_bits rtr err h
    obtain ⟨-, hrtr', herr'⟩ := rawWithFlags_bits rtr' err' h'
    rw [heq] at hrtr herr
    have hid : id = id' := by
      rw [← numericId_rawWithFlags rtr err h, heq, numericId_rawWithFlags rtr' err' h']
    exact ⟨hid, hrtr.symm.trans hrtr', herr.symm.trans herr'⟩
  · rintro ⟨rfl, rfl, rfl⟩; rfl

/-! ## The flags and the payload FDEC answers (R67, R112, R113) -/

/-- Bits 0, 1 and 2 of `oflags` are bits 31, 30 and 29 of the raw field, and the others are 0. -/
theorem oflagsByte_bits (raw : Word) :
    (oflagsByte raw).getLsbD 0 = raw.getLsbD 31 ∧ (oflagsByte raw).getLsbD 1 = raw.getLsbD 30 ∧
    (oflagsByte raw).getLsbD 2 = raw.getLsbD 29 ∧ (oflagsByte raw).extractLsb' 3 5 = 0 := by
  unfold oflagsByte extFlag rtrFlagOf errFlagOf
  generalize raw.getLsbD 31 = ext, raw.getLsbD 30 = rtr, raw.getLsbD 29 = err
  revert ext rtr err; decide

/-- The payload slice is determined by the bytes below the length. -/
theorem payloadSlice_eq_iff {len : Byte} {data data' : Payload} :
    payloadSlice len data = payloadSlice len data' ↔ ∀ i : Fin 8, i.1 < len.toNat → data[i] = data'[i] := by
  constructor
  · intro h i hi
    have hbyte : (payloadSlice len data)[i.1] = (payloadSlice len data')[i.1] := by rw [h]
    rwa [payloadSlice_getElem _ _ _ i.2, payloadSlice_getElem _ _ _ i.2, if_pos hi, if_pos hi] at hbyte
  · intro h
    refine Vector.ext fun i hi => ?_
    rw [payloadSlice_getElem _ _ _ hi, payloadSlice_getElem _ _ _ hi]
    exact ite_congr rfl (h ⟨i, hi⟩) fun _ => rfl

/-! ## The outcomes of FENC, FDEC and BCMSETUP (R100, R103, R110, R120) -/

theorem State.respond_inj {s : State} {r r' : Response} : s.respond r = s.respond r' ↔ r = r' := by
  refine ⟨fun h => ?_, congrArg s.respond⟩
  have hbytes : r.toBytes = r'.toBytes := by simpa using congrArg State.responses h
  rw [← Response.ofBytes_toBytes r, hbytes, Response.ofBytes_toBytes]

theorem finishFrame_inj {f g : Frame} {s : State} : finishFrame f s = finishFrame g s ↔ f = g := by
  refine ⟨fun h => ?_, fun h => by rw [h]⟩
  have hresponse : frameResponse f = frameResponse g := State.respond_inj.mp (Host.Outcome.next.inj h)
  rw [← frameResponse_frame f, hresponse, frameResponse_frame]

section
variable (data : Payload) (rtr err : Bool) (s : State)

theorem exec_fenc_of_accepted {id : Word} {len : Byte} (hlen : len.toNat ≤ 8) (hid : id.toNat ≤ 0x1FFFFFFF) :
    exec (.fenc id len data rtr err) s =
      finishFrame (mkFrame s.cfg.endian (rawWithFlags id rtr err) len (payloadSlice len data)) s :=
  (if_neg (Nat.not_lt.mpr hlen)).trans (if_neg (Nat.not_lt.mpr hid))

theorem exec_fenc_of_length (id : Word) {len : Byte} (hlen : 8 < len.toNat) :
    exec (.fenc id len data rtr err) s = raise .tooMuchData (len.setWidth 32) s := if_pos hlen

theorem exec_fenc_of_identifier {id : Word} {len : Byte} (hlen : len.toNat ≤ 8) (hid : 0x1FFFFFFF < id.toNat) :
    exec (.fenc id len data rtr err) s = raise .idTooLarge id s :=
  (if_neg (Nat.not_lt.mpr hlen)).trans (if_pos hid)

end

/-- The response that carries the fields of a frame record. -/
def fieldsResponse (e : Endian) (f : Frame) : Response :=
  { kind := 0x01, value32 := numericId (rawId e f), oflags := oflagsByte (rawId e f), len := dlen f,
    data := payloadSlice (dlen f) (fdata f) }

theorem exec_fdec_of_valid {f : Frame} (s : State) (h : (dlen f).toNat ≤ 8) :
    exec (.fdec f) s = .next (s.respond (fieldsResponse s.cfg.endian f)) := if_neg (Nat.not_lt.mpr h)

/-- FDEC looks at a record through its raw field, its length and its payload up to the length only. -/
theorem exec_fdec_congr {f g : Frame} (s : State) (hraw : rawId s.cfg.endian f = rawId s.cfg.endian g)
    (hlen : dlen f = dlen g) (hdata : payloadSlice (dlen f) (fdata f) = payloadSlice (dlen f) (fdata g)) :
    exec (.fdec f) s = exec (.fdec g) s := by
  simp only [exec, execFdec, hraw, ← hlen, hdata]

/-- An ENVELOPE response has status OK (R64). -/
theorem finishEnvelope_status (bs : List Byte) (s : State) :
    ∃ b : ResponseRecord, finishEnvelope bs s = .next { s with responses := s.responses ++ [b] } ∧ b[0] = 0 :=
  ⟨_, finishEnvelope_eq bs s, (responseRecordLayout _).1⟩

/-! ## The statements -/

/-- Settles O9: the record holds the field of `rawWithFlags`, the length and the payload slice. -/
theorem fencBuildsTheFrame : Obligations.FencBuildsTheFrame := by
  intro id len data rtr err s hlen hid
  obtain ⟨r, hexec, hr, hblob, hframe⟩ := finishFrame_mkFrame s.cfg.endian (rawWithFlags id rtr err) len
    (payloadSlice len data) s
  obtain ⟨hext, hrtr, herr⟩ := rawWithFlags_bits rtr err hid
  refine ⟨r, (exec_fenc_of_accepted data rtr err s hlen hid).trans hexec, hr, hblob, ?_⟩
  rw [hframe, rawId_mkFrame, dlen_mkFrame]
  exact ⟨rawWithFlags_low id rtr err, hext, hrtr, herr, rfl, mkFrame_getElem_padding _ _ _ _ 0 (by decide),
    mkFrame_getElem_padding _ _ _ _ 1 (by decide), mkFrame_getElem_padding _ _ _ _ 2 (by decide),
    fun i => by rw [mkFrame_getElem_data _ _ _ _ i.1 i.2, payloadSlice_getElem _ _ _ i.2]; rfl⟩

/-- Settles O11: FDEC reads back the field, the length and the payload slice that FENC wrote. -/
theorem fdecInvertsFenc : Obligations.FdecInvertsFenc := by
  intro id len data rtr err s s' hlen hid hendian
  obtain ⟨r, hexec, -, -, hframe⟩ := finishFrame_mkFrame s.cfg.endian (rawWithFlags id rtr err) len
    (payloadSlice len data) s
  have hraw : rawId s'.cfg.endian r.frame = rawWithFlags id rtr err := by rw [hframe, hendian, rawId_mkFrame]
  have hdlen : dlen r.frame = len := by rw [hframe, dlen_mkFrame]
  have hdata : fdata r.frame = payloadSlice len data := by rw [hframe, fdata_mkFrame]
  obtain ⟨hext, hrtr, herr⟩ := rawWithFlags_bits rtr err hid
  obtain ⟨hbit0, hbit1, hbit2, -⟩ := oflagsByte_bits (rawWithFlags id rtr err)
  refine ⟨r, fieldsResponse s'.cfg.endian r.frame, (exec_fenc_of_accepted data rtr err s hlen hid).trans hexec,
    exec_fdec_of_valid s' (by rwa [hdlen]), rfl, rfl, ?_⟩
  simp only [fieldsResponse, hraw, hdlen, hdata, true_and]
  refine ⟨numericId_rawWithFlags rtr err hid, hbit0.trans hext, hbit1.trans hrtr, hbit2.trans herr, fun i hi => ?_⟩
  simp only [Fin.getElem_fin, payloadSlice_getElem _ _ _ i.2, if_pos hi]

/-- Settles O12: equal states hold equal records, and a record determines its field, length and payload slice. -/
theorem fencRecordDeterminesItsOperands : Obligations.FencRecordDeterminesItsOperands := by
  intro id id' len len' data data' rtr rtr' err err' s hlen hlen' hid hid'
  rw [exec_fenc_of_accepted data rtr err s hlen hid, exec_fenc_of_accepted data' rtr' err' s hlen' hid',
    finishFrame_inj, mkFrame_inj, rawWithFlags_inj hid hid', and_assoc, and_assoc]
  refine and_congr_right' (and_congr_right' (and_congr_right' (and_congr_right fun hlength => ?_)))
  rw [← hlength, payloadSlice_eq_iff]

/-- Settles O13, field by field of the FIELDS response. -/
theorem fdecReadsTheFields : Obligations.FdecReadsTheFields := by
  intro f s hlen raw
  have hraw : rawId s.cfg.endian f = raw := rawId_eq_append s.cfg.endian f
  obtain ⟨hbit0, hbit1, hbit2, hrest⟩ := oflagsByte_bits raw
  refine ⟨fieldsResponse s.cfg.endian f, exec_fdec_of_valid s hlen, rfl, ?_⟩
  simp only [fieldsResponse, hraw]
  refine ⟨rfl, hbit0, hbit1, hbit2, hrest, fun i => ?_⟩
  rw [Fin.getElem_fin, payloadSlice_getElem _ _ _ i.2, fdata_getElem f i.1 i.2]
  rfl

/-- Settles O15: the two records agree in all that `exec_fdec_congr` names. -/
theorem fdecIgnoresPaddingAndTail : Obligations.FdecIgnoresPaddingAndTail := by
  intro f g s hhead hdata
  have hraw : rawId s.cfg.endian f = rawId s.cfg.endian g := by
    rw [rawId_eq_append, rawId_eq_append, show f[0] = g[0] from hhead 0, show f[1] = g[1] from hhead 1,
      show f[2] = g[2] from hhead 2, show f[3] = g[3] from hhead 3]
  refine exec_fdec_congr s hraw (hhead 4) (payloadSlice_eq_iff.mpr fun i hi => ?_)
  rw [Fin.getElem_fin, Fin.getElem_fin, fdata_getElem f i.1 i.2, fdata_getElem g i.1 i.2]
  exact hdata i hi

/-- Settles O18, by the layout. -/
theorem onlyDocPackedLimitsTheInterval : Obligations.OnlyDocPackedLimitsTheInterval := by
  intro id32 us setTimer startTimer f s hlen
  refine ⟨fun hlayout hsec => execBcmsetup_of_interval id32 us setTimer startTimer f s hlayout hlen hsec, fun haccepted => ?_⟩
  rw [exec]
  cases hlayout : s.cfg.bcmLayout with
  | docPacked =>
    have hsec : us.toNat / 1000000 ≤ 0x7FFFFFFF := haccepted.resolve_left (by simp [hlayout])
    rw [execBcmsetup_docPacked id32 us setTimer startTimer f s hlayout hlen hsec]
    exact finishEnvelope_status ..
  | lp64 =>
    rw [execBcmsetup_lp64 id32 us setTimer startTimer f s hlayout hlen]
    exact finishEnvelope_status ..

/-- Settles O10: each of the two checks raises its own status. -/
theorem fencRejectsLengthThenIdentifier : Obligations.FencRejectsLengthThenIdentifier := fun id _ data rtr err s =>
  ⟨exec_fenc_of_length data rtr err s id, exec_fenc_of_identifier data rtr err s⟩

end Machine

end Sys2Proof
end

section
/-!
PROOFS. The statements of 41_canopen.md: what COCLS answers to a frame, the frames COSPDO and COSNMT build and reject, and what
COCLS answers to them.
-/

namespace Sys2Proof

/-! ## Function code and node as numbers (R76, R141, R149) -/

section
variable (id : Word)

theorem classCode_toNat : (classCode id).toNat = id.toNat / 128 % 32 := by
  rw [classCode, BitVec.extractLsb'_toNat, Nat.shiftRight_eq_div_pow]

theorem nodeOf_toNat : (nodeOf id).toNat = id.toNat % 128 := BitVec.extractLsb'_toNat ..

end

namespace Machine

theorem functionCode_toNat (code : ClassCode) : (functionCode code).toNat = code.toNat * 128 := by
  revert code; decide

theorem toNat_setWidth_nodeAddr (node : NodeAddr) : (node.setWidth 8).toNat = node.toNat := by
  have hnode := node.isLt
  rw [BitVec.toNat_setWidth]
  omega

/-- The mask keeps bits 11:7 of an identifier where they stand, so what is left is the function code of its class code (R76, R141). -/
theorem and_funcMask (id : Word) : id &&& 0xF80 = functionCode (classCode id) := by
  have hmask : ∀ i < 32, (0xF80 : Word).getLsbD i = decide (7 ≤ i ∧ i < 12) := by decide
  refine BitVec.eq_of_getLsbD_eq fun i hi => ?_
  rw [BitVec.getLsbD_and, hmask i hi, functionCode, classCode, BitVec.getLsbD_setWidth, BitVec.getLsbD_append,
    BitVec.getLsbD_extractLsb']
  by_cases hnode : i < 7
  · simp [hnode, Nat.not_le.mpr hnode]
  · have hbit : 7 + (i - 7) = i := by omega
    have hcode : i - 7 < 5 ↔ i < 12 := by omega
    simp [hnode, hbit, hcode, Nat.not_lt.mp hnode, hi, Bool.and_comm]

theorem toNat_and_funcMask (id : Word) : (id &&& 0xF80).toNat = id.toNat / 128 % 32 * 128 := by
  rw [and_funcMask, functionCode_toNat, classCode_toNat]

/-! ## COCLS runs the row of the identifier (R140 to R148) -/

/-- COCLS looks at a frame through its length, its buffer and bits 11:0 of its identifier only (R148). -/
theorem exec_cocls_congr {f g : Frame} {s : State} (hdlen : dlen f = dlen g) (hdata : fdata f = fdata g)
    (hid : numericId (rawId s.cfg.endian f) &&& 0xFFF = numericId (rawId s.cfg.endian g) &&& 0xFFF) :
    exec (.cocls f) s = exec (.cocls g) s := by
  have hlow : (numericId (rawId s.cfg.endian f)).toNat % 4096 = (numericId (rawId s.cfg.endian g)).toNat % 4096 := by
    have hmask (id : Word) : (id &&& 0xFFF).toNat = id.toNat % 4096 := Nat.and_two_pow_sub_one_eq_mod id.toNat 12
    rw [← hmask, hid, hmask]
  have hcode : classCode (numericId (rawId s.cfg.endian f)) = classCode (numericId (rawId s.cfg.endian g)) := by
    apply BitVec.eq_of_toNat_eq
    rw [classCode_toNat, classCode_toNat]
    omega
  have hnode : nodeOf (numericId (rawId s.cfg.endian f)) = nodeOf (numericId (rawId s.cfg.endian g)) := by
    apply BitVec.eq_of_toNat_eq
    rw [nodeOf_toNat, nodeOf_toNat]
    omega
  rcases Nat.lt_or_ge 8 (dlen f).toNat with hlen | hlen
  · rw [exec_cocls_of_malformed s hlen, exec_cocls_of_malformed s (hdlen ▸ hlen), hdlen]
  · rw [exec_cocls_of_valid s hlen, exec_cocls_of_valid s (hdlen ▸ hlen), hcode, hnode, hdlen, hdata]

/-- The rows of the table by class code, the four ProcessData rows as one (R76). -/
theorem classCode_cases (code : ClassCode) :
    code = 1 ∨ (∃ k : Byte, (1 ≤ k.toNat ∧ k.toNat ≤ 4) ∧ code.toNat = 2 * k.toNat + 1) ∨ code = 11 ∨ code = 14 ∨
      code ∉ recognizedCodes := by
  by_cases hcode : code ∈ recognizedCodes
  · simp only [recognizedCodes, List.mem_cons, List.not_mem_nil, or_false] at hcode
    obtain rfl | rfl | rfl | rfl | rfl | rfl | rfl := hcode
    exacts [.inl rfl, .inr (.inl ⟨1, by decide⟩), .inr (.inl ⟨2, by decide⟩), .inr (.inl ⟨3, by decide⟩),
      .inr (.inl ⟨4, by decide⟩), .inr (.inr (.inl rfl)), .inr (.inr (.inr (.inl rfl)))]
  · exact .inr (.inr (.inr (.inr hcode)))

section
variable (node : NodeAddr) (len : Byte) (buf : Payload) (s : State)

/-- The four rows of R143 are the odd class codes 3 to 9, with channels 1 to 4. -/
theorem exec_classRow_of_pdo {code : ClassCode} {k : Byte} (hk : 1 ≤ k.toNat ∧ k.toNat ≤ 4)
    (hcode : code.toNat = 2 * k.toNat + 1) :
    exec (classRow code node len buf) s =
      .next (s.respond { kind := 0x11, value32 := functionCode code, channel := k, node := node.setWidth 8, len,
                         data := buf }) := by
  have hchannel : k = 1 ∧ code = 3 ∨ k = 2 ∧ code = 5 ∨ k = 3 ∧ code = 7 ∨ k = 4 ∧ code = 9 := by bv_omega
  obtain ⟨rfl, rfl⟩ | ⟨rfl, rfl⟩ | ⟨rfl, rfl⟩ | ⟨rfl, rfl⟩ := hchannel <;> rfl

theorem exec_classRow_of_not_recognized {code : ClassCode} (hcode : code ∉ recognizedCodes) :
    exec (classRow code node len buf) s = .next (s.respond { status := 0x03, value32 := functionCode code }) := by
  rw [classRow_of_not_recognized code node len buf hcode]
  rfl

end

theorem Status.code_ne_zero {status : Status} (h : status ≠ .ok) : status.code ≠ 0 := by
  revert h
  cases status <;> decide

/-- What COCLS can answer about the identifier `id`: a failure, or one of the three messages with the node, where a ProcessData
message carries the function code and its channel (R143, R149, R150). -/
def Response.classifies (id : Word) (r : Response) : Prop :=
  (r.status ≠ 0 ∧ r.kind = 0) ∨
  (r.status = 0 ∧ r.node = (nodeOf id).setWidth 8 ∧
    (r.kind = 0x10 ∨
      (r.kind = 0x11 ∧ r.value32 = functionCode (classCode id) ∧ r.value32.toNat = 0x080 + r.channel.toNat * 0x100) ∨
      r.kind = 0x12))

section
variable (s : State)

theorem raise_classifies (id : Word) {status : Status} (value : Word) (h : status ≠ .ok) :
    ∃ r : Response, raise status value s = .next (s.respond r) ∧ r.classifies id :=
  ⟨{ status := status.code, value32 := value }, rfl, .inl ⟨Status.code_ne_zero h, rfl⟩⟩

theorem execClsNmtState_classifies {id : Word} (len state : Byte) :
    ∃ r : Response, execClsNmtState (nodeOf id) len state s = .next (s.respond r) ∧ r.classifies id := by
  by_cases hempty : len = 0 ∧ s.cfg.nmtEmptyPolicy = .fault
  · rw [execClsNmtState, if_pos hempty]
    exact raise_classifies s id _ (by decide)
  · exact ⟨_, if_neg hempty, .inr ⟨rfl, rfl, .inr (.inr rfl)⟩⟩

theorem exec_classRow_classifies (id : Word) (len : Byte) (buf : Payload) :
    ∃ r : Response, exec (classRow (classCode id) (nodeOf id) len buf) s = .next (s.respond r) ∧ r.classifies id := by
  obtain hsync | ⟨k, hk, hpdo⟩ | hsdo | hnmt | hother := classCode_cases (classCode id)
  · rw [hsync]
    exact ⟨_, rfl, .inr ⟨rfl, rfl, .inl rfl⟩⟩
  · have hvalue : (functionCode (classCode id)).toNat = 0x080 + k.toNat * 0x100 := by
      rw [functionCode_toNat, hpdo]
      omega
    exact ⟨_, exec_classRow_of_pdo _ len buf s hk hpdo, .inr ⟨rfl, rfl, .inr (.inl ⟨rfl, rfl, hvalue⟩)⟩⟩
  · rw [hsdo]
    exact raise_classifies s id _ (by decide)
  · rw [hnmt]
    exact execClsNmtState_classifies s len buf[0]
  · rw [classRow_of_not_recognized _ _ _ _ hother]
    exact raise_classifies s id _ (by decide)

theorem exec_cocls_classifies (f : Frame) :
    ∃ r : Response, exec (.cocls f) s = .next (s.respond r) ∧ r.classifies (numericId (rawId s.cfg.endian f)) := by
  rcases Nat.lt_or_ge 8 (dlen f).toNat with hlen | hlen
  · rw [exec_cocls_of_malformed s hlen]
    exact raise_classifies s _ _ (by decide)
  · rw [exec_cocls_of_valid s hlen]
    exact exec_classRow_classifies s _ (dlen f) (fdata f)

end

theorem Response.classifies.of_pdo {id : Word} {r : Response} (h : r.classifies id) (hkind : r.kind = 0x11) :
    r.node = (nodeOf id).setWidth 8 ∧ r.value32 = functionCode (classCode id) ∧
    r.value32.toNat = 0x080 + r.channel.toNat * 0x100 := by
  obtain ⟨-, h0⟩ | ⟨-, hnode, h10 | ⟨-, hvalue, hchannel⟩ | h12⟩ := h
  · exact absurd (hkind.symm.trans h0) (by decide)
  · exact absurd (hkind.symm.trans h10) (by decide)
  · exact ⟨hnode, hvalue, hchannel⟩
  · exact absurd (hkind.symm.trans h12) (by decide)

/-! ## What COSPDO and COSNMT reject, and the standard frames they build (R160 to R164) -/

theorem exec_cospdo_of_channel {channel : Byte} (node len : Byte) (data : Payload) (s : State)
    (hch : channel.toNat < 1 ∨ 4 < channel.toNat) :
    exec (.cospdo node channel len data) s = raise .badChannel (channel.setWidth 32) s := by
  have hinvalid : (!validChannel channel) = true := by
    rw [Bool.not_eq_true', ← Bool.not_eq_true, validChannel_iff]
    omega
  exact if_pos hinvalid

theorem not_validNode {node : Byte} (h : 0x7F < node.toNat) : (!validNode node) = true := by
  rw [Bool.not_eq_true', ← Bool.not_eq_true, validNode_iff]
  omega

section
variable {node channel len : Byte} (data : Payload) (s : State) (hch : 1 ≤ channel.toNat ∧ channel.toNat ≤ 4)
include hch

theorem exec_cospdo_of_node (hnode : 0x7F < node.toNat) :
    exec (.cospdo node channel len data) s = raise .badNode (node.setWidth 32) s := by
  rw [exec, execCospdo, validChannel_iff.mpr hch]
  exact if_pos (not_validNode hnode)

theorem exec_cospdo_of_length (hnode : node.toNat ≤ 0x7F) (hlen : 8 < len.toNat) :
    exec (.cospdo node channel len data) s = raise .tooMuchData (len.setWidth 32) s := by
  rw [exec, execCospdo, validChannel_iff.mpr hch, validNode_iff.mpr hnode]
  exact if_pos hlen

end

theorem nmtCommandOf_eq_none {cmd : Byte} (h : 4 < cmd.toNat) : nmtCommandOf cmd = none := by
  have hne (n : Byte) (hn : n.toNat ≤ 4) : cmd ≠ n := by rintro rfl; omega
  simp only [nmtCommandOf, hne 0 (by decide), hne 1 (by decide), hne 2 (by decide), hne 3 (by decide),
    hne 4 (by decide), if_false]

theorem nmtCommandOf_isSome {cmd : Byte} (h : cmd.toNat ≤ 4) : ∃ c, nmtCommandOf cmd = some c := by
  have hcmd : cmd = 0 ∨ cmd = 1 ∨ cmd = 2 ∨ cmd = 3 ∨ cmd = 4 := by bv_omega
  obtain rfl | rfl | rfl | rfl | rfl := hcmd
  exacts [⟨_, rfl⟩, ⟨_, rfl⟩, ⟨_, rfl⟩, ⟨_, rfl⟩, ⟨_, rfl⟩]

theorem exec_cosnmt_of_command {cmd : Byte} (node : Byte) (s : State) (hcmd : 4 < cmd.toNat) :
    exec (.cosnmt node cmd) s = raise .badCommand (cmd.setWidth 32) s := by
  rw [exec, execCosnmt, nmtCommandOf_eq_none hcmd]

theorem exec_cosnmt_of_node {node cmd : Byte} (s : State) (hcmd : cmd.toNat ≤ 4) (hnode : 0x7F < node.toNat) :
    exec (.cosnmt node cmd) s = raise .badNode (node.setWidth 32) s := by
  obtain ⟨c, hc⟩ := nmtCommandOf_isSome hcmd
  rw [exec, execCosnmt, hc]
  exact if_pos (not_validNode hnode)

/-- The outcome is a failure, or a FRAME response with a standard identifier of at most 0x77F and no flag (R164). -/
def SerializesStandard (s : State) (o : Result) : Prop :=
  (∃ status value, status ≠ Status.ok ∧ o = raise status value s) ∨
  ∃ id len buf, id.toNat ≤ 0x77F ∧ o = finishFrame (mkFrame s.cfg.endian id len buf) s

theorem execCospdo_serializesStandard (node channel len : Byte) (data : Payload) (s : State) :
    SerializesStandard s (execCospdo node channel len data s) := by
  unfold execCospdo
  split_ifs with hchannel hnode hlen
  · exact .inl ⟨_, _, by decide, rfl⟩
  · exact .inl ⟨_, _, by decide, rfl⟩
  · exact .inl ⟨_, _, by decide, rfl⟩
  · have hch : 1 ≤ channel.toNat ∧ channel.toNat ≤ 4 := validChannel_iff.mp (by simpa using hchannel)
    have hnode' : node.toNat ≤ 0x7F := validNode_iff.mp (by simpa using hnode)
    have hid : (pdoIdentifier channel node).toNat ≤ 0x77F := by
      rw [pdoIdentifier_toNat hch.2]
      omega
    exact .inr ⟨_, _, _, hid, rfl⟩

theorem execCosnmt_serializesStandard (node cmd : Byte) (s : State) :
    SerializesStandard s (execCosnmt node cmd s) := by
  unfold execCosnmt
  cases nmtCommandOf cmd with
  | none => exact .inl ⟨_, _, by decide, rfl⟩
  | some c =>
    dsimp only
    split_ifs with hnode
    · exact .inl ⟨_, _, by decide, rfl⟩
    · have hnode' : node.toNat ≤ 0x7F := validNode_iff.mp (by simpa using hnode)
      have hid : (nmtIdentifier node).toNat ≤ 0x77F := by
        rw [nmtIdentifier_toNat]
        omega
      exact .inr ⟨_, _, _, hid, rfl⟩

theorem SerializesStandard.rawId_of_ok {s : State} {o : Result} {r : Response} (h : SerializesStandard s o)
    (ho : o = .next (s.respond r)) (hok : r.status = 0) : (rawId s.cfg.endian r.frame).toNat ≤ 0x77F := by
  obtain ⟨status, value, hstatus, rfl⟩ | ⟨id, len, buf, hid, rfl⟩ := h
  · have hr : { status := status.code, value32 := value } = r := State.respond_inj.mp (Host.Outcome.next.inj ho)
    rw [← hr] at hok
    exact absurd hok (Status.code_ne_zero hstatus)
  · have hr : frameResponse (mkFrame s.cfg.endian id len buf) = r := State.respond_inj.mp (Host.Outcome.next.inj ho)
    rwa [← hr, frameResponse_frame, rawId_mkFrame]

/-! ## COCLS on a standard frame the block built (R165, R166) -/

theorem promoted_of_standard {id : Word} (h : id.toNat ≤ 0x7FF) : promoted id = id := if_neg (Nat.not_lt.mpr h)

theorem numericId_of_standard {id : Word} (h : id.toNat ≤ 0x7FF) : numericId id = id := by
  conv_lhs => rw [← promoted_of_standard h]
  exact numericId_promoted (by omega)

theorem rawWithFlags_of_standard {id : Word} (h : id.toNat ≤ 0x7FF) : rawWithFlags id false false = id := by
  rw [rawWithFlags_eq_or, ← promoted_eq_or, promoted_of_standard h]

theorem exec_cocls_mkFrame {e : Endian} {id : Word} {len : Byte} (buf : Payload) {s : State} (he : s.cfg.endian = e)
    (hid : id.toNat ≤ 0x7FF) (hlen : len.toNat ≤ 8) :
    exec (.cocls (mkFrame e id len buf)) s = exec (classRow (classCode id) (nodeOf id) len buf) s := by
  apply exec_cocls_of_decodeFrame
  rw [he, decodeFrame_mkFrame e id buf hlen, numericId_of_standard hid]

/-! ## The statements -/

/-- Settles O19. -/
theorem coclsRunsTheRowOfTheFrame : Obligations.CoclsRunsTheRowOfTheFrame := fun _ _ _ => exec_cocls_of_decodeFrame

/-- Settles O37: the function code and the channel of each row evaluate to those of R143. -/
theorem syncAndPdoRowsAnswer : Obligations.SyncAndPdoRowsAnswer := fun _ _ _ _ => ⟨rfl, rfl, rfl, rfl, rfl⟩

/-- Settles O39. -/
theorem rejectingRowsAnswer : Obligations.RejectingRowsAnswer := by
  intro node code s
  have hfc : functionCode code = code.setWidth 32 <<< 7 := by revert code; decide
  exact ⟨rfl, by rw [← hfc]; rfl⟩

/-- Settles O20: function code 0x080 is class code 1, and the identifiers of the range have it. -/
theorem coclsAnswersSync : Obligations.CoclsAnswersSync := by
  intro f s hlen id
  refine ⟨fun hfc => ?_, fun hlow hhigh => ?_⟩
  · have hcode : classCode id = 1 := classCode_of_functionCode hfc
    rw [exec_cocls_of_valid s hlen, hcode, ← nodeOf_setWidth]
    rfl
  · apply BitVec.eq_of_toNat_eq
    rw [toNat_and_funcMask]
    change _ = 128
    omega

/-- Settles O21: the function code of channel k is that of class code 2k + 1. -/
theorem coclsAnswersProcessData : Obligations.CoclsAnswersProcessData := by
  intro f k s hlen hk1 hk4 id hfc
  have hcode : (classCode id).toNat = 2 * k.toNat + 1 := by
    rw [and_funcMask, functionCode_toNat] at hfc
    omega
  rw [exec_cocls_of_valid s hlen, exec_classRow_of_pdo _ _ _ s ⟨hk1, hk4⟩ hcode, ← and_funcMask, nodeOf_setWidth]
  rfl

/-- Settles O23: function code 0x580 is class code 11, and a code outside the list is that of no listed class code. -/
theorem coclsRejectsSdoAndUnrecognized : Obligations.CoclsRejectsSdoAndUnrecognized := by
  intro f s hlen fc
  refine ⟨fun hfc => ?_, fun hfc => ?_⟩
  · have hcode : classCode (numericId (rawId s.cfg.endian f)) = 11 := classCode_of_functionCode hfc
    rw [exec_cocls_of_valid s hlen, hcode]
    rfl
  · have hfc' : fc = functionCode (classCode (numericId (rawId s.cfg.endian f))) := and_funcMask _
    have hlisted : ∀ code ∈ recognizedCodes,
        functionCode code ∈ [(0x080 : Word), 0x180, 0x280, 0x380, 0x480, 0x580, 0x700] := by decide
    rw [hfc'] at hfc ⊢
    rw [exec_cocls_of_valid s hlen, exec_classRow_of_not_recognized _ _ _ s (mt (hlisted _) hfc)]
    rfl

/-- Settles O24. -/
theorem coclsFiltersNoFlag : Obligations.CoclsFiltersNoFlag := fun _ _ _ => exec_cocls_congr

/-- Settles O25. -/
theorem coclsYieldsThreeMessagesOnly : Obligations.CoclsYieldsThreeMessagesOnly := by
  intro f s
  obtain ⟨r, hexec, hfailure | ⟨hok, hnode, hkind⟩⟩ := exec_cocls_classifies s f
  · exact ⟨r, hexec, .inl hfailure⟩
  · rw [nodeOf_setWidth] at hnode
    exact ⟨r, hexec, .inr ⟨hok, hkind.imp_right (Or.imp_left And.left), hnode⟩⟩

/-- Settles O26: below 0x1000 an identifier is its function code and its node. -/
theorem classifiedPdoRebuildsItsIdentifier : Obligations.ClassifiedPdoRebuildsItsIdentifier := by
  refine ⟨fun f r s hexec hkind hid => ?_, coclsFiltersNoFlag⟩
  obtain ⟨r', hexec', hr⟩ := exec_cocls_classifies s f
  obtain rfl : r' = r := State.respond_inj.mp (Host.Outcome.next.inj (hexec'.symm.trans hexec))
  obtain ⟨hnode, hvalue, hchannel⟩ := hr.of_pdo hkind
  generalize numericId (rawId s.cfg.endian f) = id at hid hnode hvalue ⊢
  have hnodeNat : r'.node.toNat = id.toNat % 128 := by rw [hnode, toNat_setWidth_nodeAddr, nodeOf_toNat]
  have hvalueNat : r'.value32.toNat = (id.toNat / 128) <<< 7 := by
    rw [hvalue, functionCode_toNat, classCode_toNat, Nat.shiftLeft_eq]
    omega
  refine ⟨?_, BitVec.eq_of_toNat_eq ?_⟩
  · rw [← hchannel, hvalueNat, hnodeNat, Nat.shiftLeft_eq]
    omega
  · have hlow : id.toNat % 128 < 2 ^ 7 := Nat.mod_lt _ (by decide)
    rw [BitVec.toNat_or, toNat_setWidth_byte, hvalueNat, hnodeNat, ← Nat.shiftLeft_add_eq_or_of_lt hlow, Nat.shiftLeft_eq]
    omega

/-- Settles O28: the base OR the node is the identifier COSPDO builds, and it is standard. -/
theorem cospdoIsFencOfBaseOrNode : Obligations.CospdoIsFencOfBaseOrNode := by
  intro node channel len data base s hnode hrow
  have hch : 1 ≤ channel.toNat ∧ channel.toNat ≤ 4 := by
    obtain ⟨rfl, -⟩ | ⟨rfl, -⟩ | ⟨rfl, -⟩ | ⟨rfl, -⟩ := hrow <;> decide
  have hid : base ||| node.setWidth 32 = pdoIdentifier channel node := by
    obtain ⟨rfl, rfl⟩ | ⟨rfl, rfl⟩ | ⟨rfl, rfl⟩ | ⟨rfl, rfl⟩ := hrow <;> rfl
  have hstandard : (pdoIdentifier channel node).toNat ≤ 0x7FF := by
    rw [pdoIdentifier_toNat hch.2]
    omega
  rw [hid]
  rcases Nat.lt_or_ge 8 len.toNat with hlen | hlen
  · rw [exec_cospdo_of_length data s hch hnode hlen, exec_fenc_of_length _ _ _ _ _ hlen]
  · rw [exec_fenc_of_accepted _ _ _ s hlen (by omega), rawWithFlags_of_standard hstandard]
    exact execCospdo_of_accepted data s hnode hch hlen

/-- Settles O29. -/
theorem cospdoRejectsChannelNodeLength : Obligations.CospdoRejectsChannelNodeLength := fun node _ len data s =>
  ⟨exec_cospdo_of_channel node len data s, fun hch1 hch4 => exec_cospdo_of_node data s ⟨hch1, hch4⟩,
    fun hch1 hch4 => exec_cospdo_of_length data s ⟨hch1, hch4⟩⟩

/-- Settles O31. -/
theorem cosnmtRejectsCommandThenNode : Obligations.CosnmtRejectsCommandThenNode := fun node _ s =>
  ⟨exec_cosnmt_of_command node s, exec_cosnmt_of_node s⟩

/-- Settles O32: an identifier of at most 0x77F has no flag bit. -/
theorem serializedFramesAreStandard : Obligations.SerializedFramesAreStandard := by
  intro i r s hi hexec hok
  have hstandard : SerializesStandard s (exec i s) := by
    obtain ⟨node, channel, len, data, rfl⟩ | ⟨node, cmd, rfl⟩ := hi
    · exact execCospdo_serializesStandard node channel len data s
    · exact execCosnmt_serializesStandard node cmd s
  have hid := hstandard.rawId_of_ok hexec hok
  have hflag (k : Nat) (hk : 29 ≤ k) : (rawId s.cfg.endian r.frame).getLsbD k = false :=
    getLsbD_of_le_effMask (by omega) hk
  exact ⟨hflag 31 (by decide), hflag 30 (by decide), hflag 29 (by decide), hid⟩

/-- Settles O33: no to-device base is the function code of a listed class code. -/
theorem classifyOfSerializedPdoIsUnrecognized : Obligations.ClassifyOfSerializedPdoIsUnrecognized := by
  intro node channel len data s s' hnode hch1 hch4 hlen hendian
  have hid := pdoIdentifier_toNat (node := node) hch4
  have hcode : (classCode (pdoIdentifier channel node)).toNat = 2 + 2 * channel.toNat := by
    rw [classCode_toNat, hid]
    omega
  have hvalue : functionCode (classCode (pdoIdentifier channel node)) = BitVec.ofNat 32 (0x100 + channel.toNat * 0x100) := by
    apply BitVec.eq_of_toNat_eq
    rw [functionCode_toNat, hcode, BitVec.toNat_ofNat]
    omega
  have hlisted : ∀ code ∈ recognizedCodes, code.toNat % 2 = 1 ∨ code.toNat = 14 := by decide
  have hother : classCode (pdoIdentifier channel node) ∉ recognizedCodes := fun hmem => by
    have hodd := hlisted _ hmem
    omega
  refine ⟨frameResponse _, execCospdo_of_accepted data s hnode ⟨hch1, hch4⟩ hlen, ?_⟩
  rw [frameResponse_frame, exec_cocls_mkFrame _ hendian (by omega) hlen, exec_classRow_of_not_recognized _ _ _ s' hother,
    hvalue]
  rfl

/-- Settles O34: the identifier has function code 0x700, and no command byte is one of the three other states. -/
theorem classifyOfSerializedCommandIsInitializing : Obligations.ClassifyOfSerializedCommandIsInitializing := by
  intro node cmd payload s s' hnode hendian hrow
  obtain ⟨c, hcmd, rfl⟩ := nmtCommandOf_of_row hrow
  have hid := nmtIdentifier_toNat node
  have hcode : classCode (nmtIdentifier node) = 14 := by
    apply BitVec.eq_of_toNat_eq
    rw [classCode_toNat, hid]
    change _ = 14
    omega
  have hnodeOf : (nodeOf (nmtIdentifier node)).setWidth 8 = node := by
    apply BitVec.eq_of_toNat_eq
    rw [toNat_setWidth_nodeAddr, nodeOf_toNat, hid]
    omega
  have hstate : (nmtStateOf c.payloadByte).code = 0 := by cases c <;> rfl
  refine ⟨frameResponse _, execCosnmt_of_accepted s hnode hcmd, ?_⟩
  rw [frameResponse_frame, exec_cocls_mkFrame _ hendian (by omega) (by decide), hcode]
  refine (execClsNmtState_of_state _ _ (.inl (by decide))).trans ?_
  rw [hnodeOf, Vector.getElem_set_self, hstate]
  rfl

/-- Settles O35: with selector 0x13 the reserved bits decide between the illegal request and COSSDO. -/
theorem cossdoAlwaysUnimplemented : Obligations.CossdoAlwaysUnimplemented := by
  refine ⟨fun _ => rfl, fun s b rest hreq hop => ?_⟩
  rw [step_of_requests_cons hreq]
  split_ifs with hreserved
  · have hillegal : decodeRequest b = .illegal b[0] :=
      decodeFields_of_illegal (.inr ((Request.ofBytes_reservedSet_iff b).mpr hreserved))
    rw [hillegal, hop]
    rfl
  · have hcossdo : decodeRequest b = .cossdo :=
      decodeFields_of_selector .cossdo hop (by rwa [← Bool.not_eq_true, Request.ofBytes_reservedSet_iff])
    rw [hcossdo]
    rfl

end Machine

end Sys2Proof
end

section
/-!
PROOFS. The statements of 60_exceptions.md: the status an instruction answers, by the order of its checks, and what a response
with a failure status holds.
-/

namespace Sys2Proof.Machine

/-! ## The status of an outcome (R64, R180) -/

/-- The outcome adds one response with the status `code`; unless that is OK, the response is a failure. -/
def AnswersStatus (s : State) (o : Result) (code : Byte) : Prop :=
  ∃ r : Response, o = .next (s.respond r) ∧ r.status = code ∧ (code = 0 ∨ r.isFailure)

/-- The eleven failure codes (R64). -/
theorem Status.code_of_failure {status : Status} (h : status ≠ .ok) :
    1 ≤ status.code.toNat ∧ status.code.toNat ≤ 0x0B := by
  revert h
  cases status <;> decide

section
variable {s : State}

theorem raise_answersStatus {status : Status} (value : Word) (h : status ≠ .ok) :
    AnswersStatus s (raise status value s) status.code := by
  have hfailure : Response.isFailure { status := status.code, value32 := value } := ⟨Status.code_of_failure h, rfl⟩
  exact ⟨_, rfl, rfl, .inr hfailure⟩

theorem finish_answersStatus (r : Response) : AnswersStatus s (finish r s) 0 := ⟨_, rfl, rfl, .inl rfl⟩

/-- A check: the status of an outcome follows the outcome's own condition `P`, or one `Q` that says the same. -/
theorem AnswersStatus.ite {P Q : Prop} [Decidable P] [Decidable Q] {o o' : Result} {code code' : Byte} (hPQ : P ↔ Q)
    (ho : AnswersStatus s o code) (ho' : AnswersStatus s o' code') :
    AnswersStatus s (if P then o else o') (if Q then code else code') := by
  by_cases hP : P
  · rwa [if_pos hP, if_pos (hPQ.mp hP)]
  · rwa [if_neg hP, if_neg (mt hPQ.mpr hP)]

theorem AnswersStatus.exists_record {o : Result} {code : Byte} (h : AnswersStatus s o code) :
    ∃ b, o = .next { s with responses := s.responses ++ [b] } ∧ b[0] = code := by
  obtain ⟨r, ho, hstatus, -⟩ := h
  exact ⟨r.toBytes, ho, (responseRecordLayout r).1.trans hstatus⟩

end

/-! ## The record of a failing response (R63, R180) -/

/-- Bytes 1 to 7 and everything from byte 12 on are the fields `raise` does not write. -/
theorem toBytes_toList_of_failure (status : Byte) (value : Word) :
    (Response.toBytes { status, value32 := value }).toList =
      (status :: List.replicate 7 0) ++ (memBytes .little 4 value.toNat ++ List.replicate 84 0) := by
  have hblobLen : memBytes .little 4 (0 : Word).toNat = List.replicate 4 0 := rfl
  simp only [Response.toBytes_toList, hblobLen, zeroBytes, Vector.toList_replicate, List.append_assoc,
    List.replicate_append_replicate]
  rfl

theorem toBytes_getElem_of_failure (status : Byte) (value : Word) (j : Fin 96) (h0 : j.1 ≠ 0) (h : j.1 < 8 ∨ 12 ≤ j.1) :
    (Response.toBytes { status, value32 := value })[j] = 0 := by
  rw [Fin.getElem_fin, ← Vector.getElem_toList (by simp)]
  simp only [toBytes_toList_of_failure]
  obtain hlow | hhigh := h
  · rw [List.getElem_append_left (by simpa using hlow), List.getElem_cons, dif_neg h0, List.getElem_replicate]
  · rw [List.getElem_append_right (by simp; omega), List.getElem_append_right (by simp; omega), List.getElem_replicate]

/-! ## The checks of each operation in their order (R183) -/

section
variable (s : State)

theorem exec_fenc_answersStatus (id : Word) (len : Byte) (data : Payload) (rtr err : Bool) :
    AnswersStatus s (exec (.fenc id len data rtr err) s)
      (if 8 < len.toNat then 0x01 else if 0x1FFFFFFF < id.toNat then 0x02 else 0) :=
  .ite .rfl (raise_answersStatus _ (by decide)) (.ite .rfl (raise_answersStatus _ (by decide)) (finish_answersStatus _))

theorem exec_fdec_answersStatus (f : Frame) :
    AnswersStatus s (exec (.fdec f) s) (if 8 < (dlen f).toNat then 0x05 else 0) :=
  .ite .rfl (raise_answersStatus _ (by decide)) (finish_answersStatus _)

/-- The layout decides whether the interval is checked at all (R126). -/
theorem exec_bcmsetup_answersStatus (id : Word) (us : DWord) (setTimer startTimer : Bool) (f : Frame) :
    AnswersStatus s (exec (.bcmsetup id us setTimer startTimer f) s)
      (if 8 < (dlen f).toNat then 0x05
        else if s.cfg.bcmLayout = .docPacked ∧ 0x7FFFFFFF < us.toNat / 1000000 then 0x09 else 0) := by
  refine .ite .rfl (raise_answersStatus _ (by decide)) ?_
  cases hlayout : s.cfg.bcmLayout with
  | docPacked =>
    simp only [true_and]
    exact .ite .rfl (raise_answersStatus _ (by decide)) (finish_answersStatus _)
  | lp64 =>
    simp only [reduceCtorEq, false_and, if_false]
    exact finish_answersStatus _

theorem not_validNode_iff {node : Byte} : (!validNode node) = true ↔ 0x7F < node.toNat := by
  rw [Bool.not_eq_true', ← Bool.not_eq_true, validNode_iff, Nat.not_le]

theorem exec_cospdo_answersStatus (node channel len : Byte) (data : Payload) :
    AnswersStatus s (exec (.cospdo node channel len data) s)
      (if channel.toNat < 1 ∨ 4 < channel.toNat then 0x07 else if 0x7F < node.toNat then 0x06
        else if 8 < len.toNat then 0x01 else 0) := by
  have hchannel : (!validChannel channel) = true ↔ channel.toNat < 1 ∨ 4 < channel.toNat := by
    rw [Bool.not_eq_true', ← Bool.not_eq_true, validChannel_iff]
    omega
  exact .ite hchannel (raise_answersStatus _ (by decide)) (.ite not_validNode_iff (raise_answersStatus _ (by decide))
    (.ite .rfl (raise_answersStatus _ (by decide)) (finish_answersStatus _)))

theorem exec_cosnmt_answersStatus (node cmd : Byte) :
    AnswersStatus s (exec (.cosnmt node cmd) s)
      (if 4 < cmd.toNat then 0x08 else if 0x7F < node.toNat then 0x06 else 0) := by
  split_ifs with hcmd hnode
  · rw [exec_cosnmt_of_command node s hcmd]
    exact raise_answersStatus _ (by decide)
  · rw [exec_cosnmt_of_node s (by omega) hnode]
    exact raise_answersStatus _ (by decide)
  · obtain ⟨c, hc⟩ := nmtCommandOf_isSome (Nat.not_lt.mp hcmd)
    rw [exec, execCosnmt_of_accepted s (Nat.not_lt.mp hnode) hc]
    exact finish_answersStatus _

theorem execClsNmtState_answersStatus (node : NodeAddr) (len state : Byte) :
    AnswersStatus s (execClsNmtState node len state s) (if len = 0 ∧ s.cfg.nmtEmptyPolicy = .fault then 0x0B else 0) :=
  .ite .rfl (raise_answersStatus _ (by decide)) (finish_answersStatus _)

/-- The status R183 gives COCLS on a valid frame, by the function code, the length and the policy for an empty NMT-state frame. -/
def classStatus (policy : NmtEmptyPolicy) (fc : Word) (len : Byte) : Byte :=
  if fc = 0x700 then (if len = 0 ∧ policy = .fault then 0x0B else 0)
  else if fc = 0x580 then 0x04
  else if fc ∈ [(0x080 : Word), 0x180, 0x280, 0x380, 0x480] then 0
  else 0x03

theorem classStatus_of_not_recognized (policy : NmtEmptyPolicy) {code : ClassCode} (len : Byte)
    (h : code ∉ recognizedCodes) : classStatus policy (functionCode code) len = 0x03 := by
  have hunlisted : functionCode code ≠ 0x700 ∧ functionCode code ≠ 0x580 ∧
      functionCode code ∉ [(0x080 : Word), 0x180, 0x280, 0x380, 0x480] := by
    revert code
    decide
  obtain ⟨hnmt, hsdo, hmessage⟩ := hunlisted
  rw [classStatus, if_neg hnmt, if_neg hsdo, if_neg hmessage]

/-- Each listed row has its own function code, and every other code is that of CLS_UNRECOGNIZED (R76, R147). -/
theorem exec_classRow_answersStatus (code : ClassCode) (node : NodeAddr) (len : Byte) (buf : Payload) :
    AnswersStatus s (exec (classRow code node len buf) s) (classStatus s.cfg.nmtEmptyPolicy (functionCode code) len) := by
  by_cases hcode : code ∈ recognizedCodes
  · simp only [recognizedCodes, List.mem_cons, List.not_mem_nil, or_false] at hcode
    obtain rfl | rfl | rfl | rfl | rfl | rfl | rfl := hcode
    exacts [finish_answersStatus _, finish_answersStatus _, finish_answersStatus _, finish_answersStatus _,
      finish_answersStatus _, raise_answersStatus _ (by decide), execClsNmtState_answersStatus s node len buf[0]]
  · rw [classRow_of_not_recognized code node len buf hcode, classStatus_of_not_recognized _ len hcode]
    exact raise_answersStatus _ (by decide)

theorem exec_cocls_answersStatus (f : Frame) :
    AnswersStatus s (exec (.cocls f) s)
      (if 8 < (dlen f).toNat then 0x05
        else classStatus s.cfg.nmtEmptyPolicy (numericId (rawId s.cfg.endian f) &&& 0xF80) (dlen f)) := by
  split_ifs with hlen
  · rw [exec_cocls_of_malformed s hlen]
    exact raise_answersStatus _ (by decide)
  · rw [exec_cocls_of_valid s (Nat.not_lt.mp hlen), and_funcMask]
    exact exec_classRow_answersStatus s ..

/-- Whatever the instruction, what it answers is OK or a failure. -/
theorem exec_answersStatus (i : Instr) : ∃ code, AnswersStatus s (exec i s) code := by
  cases i with
  | fenc => exact ⟨_, exec_fenc_answersStatus s ..⟩
  | fdec => exact ⟨_, exec_fdec_answersStatus s _⟩
  | bcmsetup => exact ⟨_, exec_bcmsetup_answersStatus s ..⟩
  | cocls => exact ⟨_, exec_cocls_answersStatus s _⟩
  | cospdo => exact ⟨_, exec_cospdo_answersStatus s ..⟩
  | cosnmt => exact ⟨_, exec_cosnmt_answersStatus s ..⟩
  | clsNmtState => exact ⟨_, execClsNmtState_answersStatus s ..⟩
  | cossdo | illegal | clsSdo | clsUnrecognized => exact ⟨_, raise_answersStatus _ (by decide)⟩
  | clsSync | clsPdo1 | clsPdo2 | clsPdo3 | clsPdo4 => exact ⟨_, finish_answersStatus _⟩

end

/-! ## The statements -/

/-- Settles O47: each operation answers the status of its first check that fails. -/
theorem checkOrderDecidesTheStatus : Obligations.CheckOrderDecidesTheStatus := fun s =>
  ⟨fun id len data rtr err => (exec_fenc_answersStatus s id len data rtr err).exists_record,
    fun f => (exec_fdec_answersStatus s f).exists_record,
    fun id us setTimer startTimer f => (exec_bcmsetup_answersStatus s id us setTimer startTimer f).exists_record,
    fun f => (exec_cocls_answersStatus s f).exists_record,
    fun node channel len data => (exec_cospdo_answersStatus s node channel len data).exists_record,
    fun node cmd => (exec_cosnmt_answersStatus s node cmd).exists_record,
    (raise_answersStatus _ (by decide)).exists_record⟩

/-- Settles O46: the one response an instruction adds is OK or a failure, and a failure has no other bytes. -/
theorem failureHoldsStatusAndValueOnly : Obligations.FailureHoldsStatusAndValueOnly := by
  intro i s b hexec hb
  obtain ⟨code, r, hr, rfl, hcase⟩ := exec_answersStatus s i
  obtain rfl : b = r.toBytes := by simpa [State.respond] using hexec.symm.trans hr
  have hstatus : r.toBytes[0] = r.status := (responseRecordLayout r).1
  obtain ⟨⟨-, hle⟩, hfields⟩ := hcase.resolve_left (hstatus ▸ hb)
  refine ⟨by rwa [hstatus], fun j h0 hj => ?_⟩
  rw [hfields]
  exact toBytes_getElem_of_failure r.status r.value32 j h0 hj

end Sys2Proof.Machine
end

section
/-!
PROOFS. The statements of 70_reset_and_hazards.md: what reset discards and keeps, and that the host's actions between steps
change no answer.
-/

namespace Sys2Proof.Machine

/-! ## The host's actions and a step (R30, R205) -/

theorem State.takeResponse_eq_some {s s' : State} {c : ResponseRecord} :
    s.takeResponse = some (c, s') ↔ ∃ rest, s.responses = c :: rest ∧ { s with responses := rest } = s' := by
  cases h : s.responses with
  | nil => simp [State.takeResponse, h]
  | cons oldest rest => simp [State.takeResponse, h]

/-- The oldest response stays the oldest when the block answers the request before `rest`. -/
theorem State.takeResponse_respond {s s' : State} {c : ResponseRecord} (h : s.takeResponse = some (c, s'))
    (rest : List RequestRecord) (r : Response) :
    (State.respond { s with requests := rest } r).takeResponse =
      some (c, State.respond { s' with requests := rest } r) := by
  obtain ⟨later, hresponses, rfl⟩ := State.takeResponse_eq_some.mp h
  exact State.takeResponse_eq_some.mpr ⟨later ++ [r.toBytes], by simp [hresponses], rfl⟩

/-- A step that answers a request adds one response, and it adds the same one on every state with those parameters that has
that request as its oldest (R20). -/
theorem exists_respond_of_step {s t : State} {b : RequestRecord} {rest : List RequestRecord} (hreq : s.requests = b :: rest)
    (hstep : step s = .next t) :
    ∃ r : Response, t = State.respond { s with requests := rest } r ∧
      ∀ (s' : State) (rest' : List RequestRecord), s'.cfg = s.cfg → s'.requests = b :: rest' →
        step s' = .next (State.respond { s' with requests := rest' } r) := by
  obtain ⟨r, hr⟩ := step_answersBy s.cfg b
  exact ⟨r, Host.Outcome.next.inj (hstep.symm.trans (hr s rest rfl hreq)), hr⟩

/-! ## The statements -/

/-- Settles O45: the presented request waits behind the oldest one, which both steps answer alike. -/
theorem laterRequestsDoNotChangeEarlierAnswers : Obligations.LaterRequestsDoNotChangeEarlierAnswers := by
  intro s t b hwaiting hstep
  obtain ⟨oldest, rest, hreq⟩ := List.exists_cons_of_ne_nil hwaiting
  obtain ⟨r, rfl, hanswer⟩ := exists_respond_of_step hreq hstep
  have hpresent : (s.present b).requests = oldest :: (rest ++ [b]) := by simp [hreq]
  exact hanswer (s.present b) (rest ++ [b]) (State.present_cfg s b) hpresent

/-- Settles O50: the state after reset has the parameters that the one response of `step_answersBy` depends on. -/
theorem resetDiscardsRequestsAndKeepsParameters : Obligations.ResetDiscardsRequestsAndKeepsParameters := by
  intro s
  refine ⟨rfl, fun b => ?_⟩
  obtain ⟨r, hanswer⟩ := step_answersBy s.cfg b
  exact ⟨r.toBytes, hanswer (s.applyReset.present b) [] rfl rfl, hanswer⟩

/-- Settles O51, by whether a request waits: taking the oldest response keeps the parameters and the requests. -/
theorem responsesAreTakenInOrder : Obligations.ResponsesAreTakenInOrder := by
  intro s s' t c htake hstep
  obtain ⟨later, hresponses, hs'⟩ := State.takeResponse_eq_some.mp htake
  have hcfg : s'.cfg = s.cfg := hs' ▸ rfl
  have hrequests : s'.requests = s.requests := hs' ▸ rfl
  refine ⟨hs' ▸ hresponses, ?_⟩
  cases hreq : s.requests with
  | nil =>
    obtain rfl : s = t := Host.Outcome.next.inj ((step_of_requests_nil hreq).symm.trans hstep)
    exact ⟨s', htake, step_of_requests_nil (hrequests.trans hreq)⟩
  | cons b rest =>
    obtain ⟨r, rfl, hanswer⟩ := exists_respond_of_step hreq hstep
    exact ⟨_, State.takeResponse_respond htake rest r, hanswer s' rest hcfg (hrequests.trans hreq)⟩

end Sys2Proof.Machine
end

section
/-!
PROOFS. Which responses keep a run good (93_implementation_defined.md section 1).
-/

namespace Sys2Proof.Machine

/-- The statuses that mark a run are those of I2, I3, I7 and I12. -/
theorem treatment_eq_good_iff (b : ResponseRecord) :
    treatment b = .good ↔ b[0] ≠ 0x04 ∧ b[0] ≠ 0x05 ∧ b[0] ≠ 0x06 ∧ b[0] ≠ 0x07 := by
  unfold treatment Status.code
  split_ifs with hfault hrefuse
  · simp [hfault]
  · rcases hrefuse with hsdo | hnode | hchannel
    · simp [hsdo]
    · simp [hnode]
    · simp [hchannel]
  · obtain ⟨hsdo, hnode, hchannel⟩ := not_or.mp hrefuse |>.imp_right not_or.mp
    simp only [true_iff]
    exact ⟨hsdo, hfault, hnode, hchannel⟩

/-- The mark of a run depends on the earlier responses only through the mark before. -/
theorem State.goodRun_iff_of_responses_append {s t : State} {b : ResponseRecord} (h : t.responses = s.responses ++ [b]) :
    t.goodRun = true ↔ s.goodRun = true ∧ treatment b = .good := by
  simp [State.goodRun, h]

/-- Settles O52: the run goes on as good exactly when the response added is good, which its status decides. -/
theorem faultOrRefusalStatusEndsTheGoodRun : Obligations.FaultOrRefusalStatusEndsTheGoodRun := by
  intro i s t b _ hresponses
  rw [State.goodRun_iff_of_responses_append hresponses, treatment_eq_good_iff]

end Sys2Proof.Machine
end
